-- ==== Sys2Proof/Word.lean ====
section
/-! DEFINITION. The words SBC-CORE handles: every register and field is an unsigned number of a stated
width, bit 0 the least significant (spec/00_scope.md R10). Nothing is signed. -/

namespace Sys2Proof

/-- 8 bits: `rate`, `scale`, `shape`, `out`, a ROM sample, a random answer (spec/10_state.md R20). -/
abbrev Byte := BitVec 8

/-- The 11-bit phase position: `phase` and `counter` (spec/10_state.md R28, R29; `PHASE_W` of R8). -/
abbrev Phase := BitVec 11

/-- The 10-bit control input value, `CTRL_W` (spec/00_scope.md R7; spec/30_encoding.md R85). -/
abbrev Ctrl := BitVec 10

/-- The 3-bit waveform selector `shape[2:0]` (spec/10_state.md R23). -/
abbrev Sel := BitVec 3

/-- The 48-bit command word (spec/30_encoding.md R80, R81). -/
abbrev Cmd := BitVec 48

/-- The 4-bit opcode field `cmd[47:44]` (spec/30_encoding.md R81). -/
abbrev Opcode := BitVec 4

/-- The 32-bit pattern word, also the width of `data` and of the response (spec/20_memory.md R64). -/
abbrev PatWord := BitVec 32

end Sys2Proof
end

