-- ==== Sys2Proof/Config.lean ====
section
/-! DEFINITION. What an implementation of SBC-CORE fixes: the named constants of spec/00_scope.md R8, the
parameters of R7, `ShapeLayout` (spec/10_state.md R24, R25), the opcode numbers (spec/30_encoding.md R82),
and the one free value of the model: the answers of the random source (spec/43_tick_output.md R178). -/

namespace Sys2Proof.Config

/-! ## Named constants, under the names of R8 -/

/-- `CYCLE`: positions in one waveform cycle (R8). -/
def CYCLE : Nat := 2048
/-- `PHASE_W`: bits of `counter` and `phase` (R8). -/
def PHASE_W : Nat := 11
/-- `HALF`: where TRIANGLE, SQUARE and SPIKE split (R8). -/
def HALF : Nat := 1024
/-- `TRIG_THRESHOLD`: the trigger and gate-open boundary (R8). -/
def TRIG_THRESHOLD : Nat := 512
/-- `PULSE_WIDTH`: high positions of PULSE (R8). -/
def PULSE_WIDTH : Nat := 410
/-- `RATE_SHIFT`: SETRATE's right shift (R8). -/
def RATE_SHIFT : Nat := 2
/-- `SCALE_SHIFT`: SETSCALE's right shift (R8). -/
def SCALE_SHIFT : Nat := 2
/-- `SAW_SHIFT` (R8). -/
def SAW_SHIFT : Nat := 3
/-- `TRI_SHIFT` (R8). -/
def TRI_SHIFT : Nat := 2
/-- `SPIKE_SHIFT` (R8). -/
def SPIKE_SHIFT : Nat := 6
/-- `SPIKE_TOP`: the step the falling half of SPIKE counts down from (R8). -/
def SPIKE_TOP : Nat := 31
/-- `LEVEL_MAX`: full level, used by ON, SQUARE, PULSE, the inversion and the SPIKE clamp (R8). -/
def LEVEL_MAX : Nat := 255
/-- `SCALE_OUT_SHIFT`: the scaler keeps the product above this bit (R8). -/
def SCALE_OUT_SHIFT : Nat := 8
/-- `FLOOR`: the anti-flicker floor (R8). -/
def FLOOR : Nat := 1
/-- `RAND_BOUND`: exclusive bound of a random answer (R8). -/
abbrev RAND_BOUND : Nat := 255

/-! ## Parameters of one built block (R7) -/

/-- The bound on `MAX_LEDS` that the 8-bit LED index gives (R7; D7, D8). -/
def LED_INDEX_SPAN : Nat := 256

/-- The two numbers fixed when a block is built (R7). Both are open in the spec. -/
structure Params where
  /-- `MAX_LEDS` -/
  maxLeds : Nat
  /-- `NUM_LEDS_REQ` -/
  numLedsReq : Nat
  deriving DecidableEq, Repr

/-- The parameters with which a block exists: 1 ≤ `MAX_LEDS` ≤ 256 and `NUM_LEDS_REQ` ≥ 1 (R7). -/
def Params.valid (p : Params) : Bool :=
  decide (1 ≤ p.maxLeds) && decide (p.maxLeds ≤ LED_INDEX_SPAN) && decide (1 ≤ p.numLedsReq)

/-- `NUM_LEDS = min(NUM_LEDS_REQ, MAX_LEDS)`: a request above the bound is silently clamped (R7). -/
def Params.numLeds (p : Params) : Nat := min p.numLedsReq p.maxLeds

/-- DESIGN CHOICE (notes/assumptions/5.md): the block that `State.reset` is the reset state of. The spec
leaves both numbers open; these are the ones most of its own test programs use (spec/95_test_vectors.md). -/
def defaultParams : Params := { maxLeds := 16, numLedsReq := 4 }

/-! ## `ShapeLayout` (spec/10_state.md R24, R25) -/

/-- The configuration record `ShapeLayout`: the eight selector codes and the five flag bit positions. -/
structure ShapeLayout where
  selOff : Sel
  selSaw : Sel
  selTriangle : Sel
  selSquare : Sel
  selPulse : Sel
  selSpike : Sel
  selRandom : Sel
  selOn : Sel
  fInvert : Nat
  fMiss1 : Nat
  fMiss2 : Nat
  fGateout : Nat
  fOneshot : Nat
  deriving DecidableEq, Repr

/-- The codes of a layout, in the order of R24. -/
def ShapeLayout.codes (l : ShapeLayout) : List Sel :=
  [l.selOff, l.selSaw, l.selTriangle, l.selSquare, l.selPulse, l.selSpike, l.selRandom, l.selOn]

/-- The flag bit positions of a layout, in the order of R25. -/
def ShapeLayout.flagBits (l : ShapeLayout) : List Nat :=
  [l.fInvert, l.fMiss1, l.fMiss2, l.fGateout, l.fOneshot]

/-- A layout the spec admits: eight different codes, and five different flag bits above the selector
(spec/92_eei_decisions.md, open parameters). -/
def ShapeLayout.valid (l : ShapeLayout) : Bool :=
  decide l.codes.Nodup && decide l.flagBits.Nodup && l.flagBits.all (fun b => decide (3 ≤ b ∧ b ≤ 7))

/-- The layout of R24 and R25 (decisions D5 and D6 of the spec; notes/assumptions/7.md). -/
def shapeLayout : ShapeLayout where
  selOff := 0
  selSaw := 1
  selTriangle := 2
  selSquare := 3
  selPulse := 4
  selSpike := 5
  selRandom := 6
  selOn := 7
  fInvert := 3
  fMiss1 := 4
  fMiss2 := 5
  fGateout := 6
  fOneshot := 7

/-- `SEL_OFF` (R24). -/
def SEL_OFF : Sel := shapeLayout.selOff
/-- `SEL_SAW` (R24). -/
def SEL_SAW : Sel := shapeLayout.selSaw
/-- `SEL_TRIANGLE` (R24). -/
def SEL_TRIANGLE : Sel := shapeLayout.selTriangle
/-- `SEL_SQUARE` (R24). -/
def SEL_SQUARE : Sel := shapeLayout.selSquare
/-- `SEL_PULSE` (R24). -/
def SEL_PULSE : Sel := shapeLayout.selPulse
/-- `SEL_SPIKE` (R24). -/
def SEL_SPIKE : Sel := shapeLayout.selSpike
/-- `SEL_RANDOM` (R24). -/
def SEL_RANDOM : Sel := shapeLayout.selRandom
/-- `SEL_ON` (R24). -/
def SEL_ON : Sel := shapeLayout.selOn
/-- `F_INVERT`: bit position (R25). -/
def F_INVERT : Nat := shapeLayout.fInvert
/-- `F_MISS1`: bit position (R25). -/
def F_MISS1 : Nat := shapeLayout.fMiss1
/-- `F_MISS2`: bit position (R25). -/
def F_MISS2 : Nat := shapeLayout.fMiss2
/-- `F_GATEOUT`: bit position (R25). -/
def F_GATEOUT : Nat := shapeLayout.fGateout
/-- `F_ONESHOT`: bit position (R25). -/
def F_ONESHOT : Nat := shapeLayout.fOneshot

/-! ## Opcode numbers (spec/30_encoding.md R82, decision D2 of the spec) -/

/-- NOP (R82). -/
def OP_NOP : Opcode := 0x0
/-- SETRATE (R82). -/
def OP_SETRATE : Opcode := 0x1
/-- SETSCALE (R82). -/
def OP_SETSCALE : Opcode := 0x2
/-- SETTRIG (R82). -/
def OP_SETTRIG : Opcode := 0x3
/-- SETPAT (R82). -/
def OP_SETPAT : Opcode := 0x4
/-- RDPAT (R82). -/
def OP_RDPAT : Opcode := 0x5
/-- TICK (R82). -/
def OP_TICK : Opcode := 0x6

/-! ## The free value -/

/-- An answer the random source may give: a number in 0 to 254. No other is a move of it
(spec/70_reset_and_hazards.md R244; decision D11 and I6 of the spec). -/
abbrev Draw := Fin RAND_BOUND

/-- The answer of the random source to the `k`-th request, where the environment has queued none: an
unconstrained number in 0 to 254 (spec/43_tick_output.md R178, spec/60_exceptions.md R215). It has no body,
so nothing can be proved of it but its range (notes/assumptions/4.md). -/
opaque freeDraw : Nat → Draw

end Sys2Proof.Config
end

