-- ==== Sys2Proof/Syntax.lean ====
section
/-! DEFINITION. The commands of SBC-CORE: one constructor per row of spec/opcode_table.json, operands at the
widths of spec/30_encoding.md R81, R85 and R91. -/

namespace Sys2Proof

/-- A command. The nine reserved opcodes stay apart from NOP, as spec/30_encoding.md R86 asks; `ldpat` and
`encpat` are the pseudo-instructions of R90, which no command word decodes to. -/
inductive Instr where
  /-- NOP (spec/40_control_commands.md R100) -/
  | nop
  /-- SETRATE led, value (R101) -/
  | setrate (led : Byte) (value : Ctrl)
  /-- SETSCALE led, value (R102) -/
  | setscale (led : Byte) (value : Ctrl)
  /-- SETTRIG led, value (R103) -/
  | settrig (led : Byte) (value : Ctrl)
  /-- SETPAT led, shape, phase16 (spec/41_pattern_commands.md R120) -/
  | setpat (led : Byte) (shape : Byte) (phase16 : BitVec 16)
  /-- RDPAT led (R124) -/
  | rdpat (led : Byte)
  /-- TICK (spec/42_tick_gate_advance.md R140) -/
  | tick
  /-- reserved opcode 0x7 (spec/30_encoding.md R86) -/
  | reserved7
  /-- reserved opcode 0x8 (R86) -/
  | reserved8
  /-- reserved opcode 0x9 (R86) -/
  | reserved9
  /-- reserved opcode 0xA (R86) -/
  | reservedA
  /-- reserved opcode 0xB (R86) -/
  | reservedB
  /-- reserved opcode 0xC (R86) -/
  | reservedC
  /-- reserved opcode 0xD (R86) -/
  | reservedD
  /-- reserved opcode 0xE (R86) -/
  | reservedE
  /-- reserved opcode 0xF (R86) -/
  | reservedF
  /-- LDPAT led, b0, b1, b2, b3: SETPAT under another name (R126) -/
  | ldpat (led : Byte) (b0 b1 b2 b3 : Byte)
  /-- ENCPAT led: RDPAT under another name (R127) -/
  | encpat (led : Byte)
  deriving DecidableEq, Repr

end Sys2Proof
end

