-- ==== Sys2Proof/WellFormed.lean ====
section
/-! DEFINITION. Which terms of `Instr` are commands of the port. Operand ranges need no check: the types carry
the widths, and every value of a field is legal (spec/30_encoding.md R87). -/

namespace Sys2Proof

/-- A well-formed command: one of the seven defined or nine reserved commands, the terms a command word stands
for (spec/30_encoding.md R91, and R92: every word matches exactly one non-pseudo row). The two pseudo names
are refused: they are another spelling, written in an assembler's input and expanded before the port (R90). -/
def Instr.wellFormed : Instr → Bool
  | .nop => true
  | .setrate _ _ => true
  | .setscale _ _ => true
  | .settrig _ _ => true
  | .setpat _ _ _ => true
  | .rdpat _ => true
  | .tick => true
  | .reserved7 => true
  | .reserved8 => true
  | .reserved9 => true
  | .reservedA => true
  | .reservedB => true
  | .reservedC => true
  | .reservedD => true
  | .reservedE => true
  | .reservedF => true
  | .ldpat _ _ _ _ _ => false
  | .encpat _ => false

end Sys2Proof
end

