-- ==== Sys2Proof/Decode.lean ====
section
/-! DEFINITION. The command word: its fields, the total decoder (spec/30_encoding.md R91), the encoder (R89,
R90), and the opcode table's rows (R92). Every 48-bit word decodes, so the decoder rejects nothing (R87); what
it is not given is a length other than 48 bits, for there is only one (R80). -/

namespace Sys2Proof

/-! ## Fields of a command word (R81, R85) -/

/-- `cmd.op = cmd[47:44]` (R81). -/
def cmdOp (w : Cmd) : Opcode := w.extractLsb' 44 4

/-- `rsv = cmd[43:40]`, ignored by the block (R81, R84). -/
def cmdRsv (w : Cmd) : BitVec 4 := w.extractLsb' 40 4

/-- `cmd.led = cmd[39:32]` (R81). -/
def cmdLed (w : Cmd) : Byte := w.extractLsb' 32 8

/-- `cmd.data = cmd[31:0]` (R81). -/
def cmdData (w : Cmd) : PatWord := w.extractLsb' 0 32

/-- The control value `data[9:0]` (R85 a). -/
def dataValue (d : PatWord) : Ctrl := d.extractLsb' 0 10

/-- The shape byte `data[31:24]` (R85 b). -/
def dataShape (d : PatWord) : Byte := d.extractLsb' 24 8

/-- The written phase `phase16 = data[15:0]` (R85 b). -/
def dataPhase16 (d : PatWord) : BitVec 16 := d.extractLsb' 0 16

/-! ## The decoder (R91) -/

/-- The decoder: total on command words, the opcode alone choosing the command. -/
def decode (w : Cmd) : Instr :=
  if cmdOp w = Config.OP_NOP then .nop
  else if cmdOp w = Config.OP_SETRATE then .setrate (cmdLed w) (dataValue (cmdData w))
  else if cmdOp w = Config.OP_SETSCALE then .setscale (cmdLed w) (dataValue (cmdData w))
  else if cmdOp w = Config.OP_SETTRIG then .settrig (cmdLed w) (dataValue (cmdData w))
  else if cmdOp w = Config.OP_SETPAT then
    .setpat (cmdLed w) (dataShape (cmdData w)) (dataPhase16 (cmdData w))
  else if cmdOp w = Config.OP_RDPAT then .rdpat (cmdLed w)
  else if cmdOp w = Config.OP_TICK then .tick
  else if cmdOp w = 0x7 then .reserved7
  else if cmdOp w = 0x8 then .reserved8
  else if cmdOp w = 0x9 then .reserved9
  else if cmdOp w = 0xA then .reservedA
  else if cmdOp w = 0xB then .reservedB
  else if cmdOp w = 0xC then .reservedC
  else if cmdOp w = 0xD then .reservedD
  else if cmdOp w = 0xE then .reservedE
  else .reservedF

/-- The decoder on an instruction given as the opcode table numbers its bits: bit 0 of `w` is `cmd[0]`, and
bits at and above `nbits` are 0. A length above 48 bits is no command (R80). -/
def decodeTableWord (nbits w : Nat) : Option Instr :=
  if nbits ≤ 48 then some (decode (BitVec.ofNat 48 (w % 2 ^ nbits))) else none

/-! ## The encoder (R89, R90) -/

/-- The opcode field an instruction is encoded with (R82, R86; a pseudo-instruction's is that of its
expansion, R90). -/
def opcodeOf : Instr → Opcode
  | .nop => Config.OP_NOP
  | .setrate _ _ => Config.OP_SETRATE
  | .setscale _ _ => Config.OP_SETSCALE
  | .settrig _ _ => Config.OP_SETTRIG
  | .setpat _ _ _ => Config.OP_SETPAT
  | .rdpat _ => Config.OP_RDPAT
  | .tick => Config.OP_TICK
  | .reserved7 => 0x7
  | .reserved8 => 0x8
  | .reserved9 => 0x9
  | .reservedA => 0xA
  | .reservedB => 0xB
  | .reservedC => 0xC
  | .reservedD => 0xD
  | .reservedE => 0xE
  | .reservedF => 0xF
  | .ldpat _ _ _ _ _ => Config.OP_SETPAT
  | .encpat _ => Config.OP_RDPAT

/-- `{op, 0x0, led, data}`: a command word with `rsv` zero (R81, R89). -/
def cmdWord (op : Opcode) (led : Byte) (data : PatWord) : Cmd := op ++ 0#4 ++ led ++ data

/-- `zext_32(value)`: the data of a control command (R89). -/
def ctrlData (value : Ctrl) : PatWord := value.setWidth 32

/-- `{b0, b1, b2, b3}`: four bytes, byte 0 in the most significant position (spec/20_memory.md R64). -/
def bytesWord (b0 b1 b2 b3 : Byte) : PatWord := b0 ++ b1 ++ b2 ++ b3

/-- `{shape, 0x00, phase16}`: the data of SETPAT (R89). -/
def patData (shape : Byte) (phase16 : BitVec 16) : PatWord := shape ++ 0#8 ++ phase16

/-- The encoder: the command word R89 and R90 give an instruction, every bit that no operand fills being 0. -/
def encode : Instr → Cmd
  | .nop => cmdWord (opcodeOf .nop) 0 0
  | .setrate led v => cmdWord (opcodeOf (.setrate led v)) led (ctrlData v)
  | .setscale led v => cmdWord (opcodeOf (.setscale led v)) led (ctrlData v)
  | .settrig led v => cmdWord (opcodeOf (.settrig led v)) led (ctrlData v)
  | .setpat led sh ph => cmdWord (opcodeOf (.setpat led sh ph)) led (patData sh ph)
  | .rdpat led => cmdWord (opcodeOf (.rdpat led)) led 0
  | .tick => cmdWord (opcodeOf .tick) 0 0
  | .reserved7 => cmdWord (opcodeOf .reserved7) 0 0
  | .reserved8 => cmdWord (opcodeOf .reserved8) 0 0
  | .reserved9 => cmdWord (opcodeOf .reserved9) 0 0
  | .reservedA => cmdWord (opcodeOf .reservedA) 0 0
  | .reservedB => cmdWord (opcodeOf .reservedB) 0 0
  | .reservedC => cmdWord (opcodeOf .reservedC) 0 0
  | .reservedD => cmdWord (opcodeOf .reservedD) 0 0
  | .reservedE => cmdWord (opcodeOf .reservedE) 0 0
  | .reservedF => cmdWord (opcodeOf .reservedF) 0 0
  | .ldpat led b0 b1 b2 b3 => cmdWord (opcodeOf (.ldpat led b0 b1 b2 b3)) led (bytesWord b0 b1 b2 b3)
  | .encpat led => cmdWord (opcodeOf (.encpat led)) led 0

/-- A pseudo-instruction's expansion; every other instruction is its own (R90). -/
def expandPseudo : Instr → Instr
  | .nop => .nop
  | .setrate led v => .setrate led v
  | .setscale led v => .setscale led v
  | .settrig led v => .settrig led v
  | .setpat led sh ph => .setpat led sh ph
  | .rdpat led => .rdpat led
  | .tick => .tick
  | .reserved7 => .reserved7
  | .reserved8 => .reserved8
  | .reserved9 => .reserved9
  | .reservedA => .reservedA
  | .reservedB => .reservedB
  | .reservedC => .reservedC
  | .reservedD => .reservedD
  | .reservedE => .reservedE
  | .reservedF => .reservedF
  | .ldpat led b0 _ b2 b3 => .setpat led b0 (b2 ++ b3)
  | .encpat led => .rdpat led

/-- The bits of a command word its opcode uses; the block ignores the others (R84). They are the bits the
table's `encoding` pattern gives to the opcode or to an operand (R92). -/
def usedBits (op : Opcode) : Cmd :=
  if op = Config.OP_SETRATE ∨ op = Config.OP_SETSCALE ∨ op = Config.OP_SETTRIG then 0xF0FF000003FF
  else if op = Config.OP_SETPAT then 0xF0FFFF0007FF
  else if op = Config.OP_RDPAT then 0xF0FF00000000
  else 0xF00000000000

/-! ## Canonical words (R84, R91) -/

/-- The canonical word of the same meaning: every bit the opcode does not use is 0 (R84; decision D3 of the
spec). -/
def canonicalWord (w : Cmd) : Cmd := w &&& usedBits (cmdOp w)

/-- The canonical encoding of an instruction (R84, R91). It differs from `encode` only where an operand as written
has bits the block ignores: the high bits of SETPAT's 16-bit phase, and of LDPAT's bytes (R89, R90). -/
def encodeCanonical (c : Instr) : Cmd := canonicalWord (encode c)

/-- A canonical command: a command of the port whose written phase, if it has one, is a stored phase (R84,
R91). -/
def Instr.canonical : Instr → Bool
  | .nop => true
  | .setrate _ _ => true
  | .setscale _ _ => true
  | .settrig _ _ => true
  | .setpat _ _ phase16 => decide (phase16.toNat < Config.CYCLE)
  | .rdpat _ => true
  | .tick => true
  | .reserved7 => true
  | .reserved8 => true
  | .reserved9 => true
  | .reservedA => true
  | .reservedB => true
  | .reservedC => true
  | .reservedD => true
  | .reservedE => true
  | .reservedF => true
  | .ldpat _ _ _ _ _ => false
  | .encpat _ => false

/-! ## The opcode table (R92) -/

/-- One row of spec/opcode_table.json, its columns under the table's names (R92). -/
structure OpcodeRow where
  mnemonic : String
  /-- the column `match` -/
  matchBits : Cmd
  mask : Cmd
  /-- 48 characters, bit 47 first: `0` and `1` fixed, `-` ignored, `l`, `v`, `s`, `p` an operand's bits -/
  encoding : String
  /-- bit ranges of `cmd`: name, highest bit, lowest bit -/
  fields : List (String × Nat × Nat)
  /-- the rule that gives the semantics -/
  rule : String
  pseudo : Bool
  /-- what a pseudo-command expands to, in the table's words -/
  expandsTo : Option String
  deriving DecidableEq, Repr

/-- The row NOP. -/
def rowNop : OpcodeRow where
  mnemonic := "NOP"
  matchBits := 0x000000000000
  mask := 0xF00000000000
  encoding := "0000--------------------------------------------"
  fields := [("op", 47, 44)]
  rule := "R100"
  pseudo := false
  expandsTo := none

/-- The row SETRATE. -/
def rowSetrate : OpcodeRow where
  mnemonic := "SETRATE"
  matchBits := 0x100000000000
  mask := 0xF00000000000
  encoding := "0001----llllllll----------------------vvvvvvvvvv"
  fields := [("op", 47, 44), ("led", 39, 32), ("value", 9, 0)]
  rule := "R101"
  pseudo := false
  expandsTo := none

/-- The row SETSCALE. -/
def rowSetscale : OpcodeRow where
  mnemonic := "SETSCALE"
  matchBits := 0x200000000000
  mask := 0xF00000000000
  encoding := "0010----llllllll----------------------vvvvvvvvvv"
  fields := [("op", 47, 44), ("led", 39, 32), ("value", 9, 0)]
  rule := "R102"
  pseudo := false
  expandsTo := none

/-- The row SETTRIG. -/
def rowSettrig : OpcodeRow where
  mnemonic := "SETTRIG"
  matchBits := 0x300000000000
  mask := 0xF00000000000
  encoding := "0011----llllllll----------------------vvvvvvvvvv"
  fields := [("op", 47, 44), ("led", 39, 32), ("value", 9, 0)]
  rule := "R103"
  pseudo := false
  expandsTo := none

/-- The row SETPAT. -/
def rowSetpat : OpcodeRow where
  mnemonic := "SETPAT"
  matchBits := 0x400000000000
  mask := 0xF00000000000
  encoding := "0100----llllllllssssssss-------------ppppppppppp"
  fields := [("op", 47, 44), ("led", 39, 32), ("shape", 31, 24), ("reserved_byte", 23, 16), ("phase16", 15, 0), ("phase", 10, 0)]
  rule := "R120"
  pseudo := false
  expandsTo := none

/-- The row RDPAT. -/
def rowRdpat : OpcodeRow where
  mnemonic := "RDPAT"
  matchBits := 0x500000000000
  mask := 0xF00000000000
  encoding := "0101----llllllll--------------------------------"
  fields := [("op", 47, 44), ("led", 39, 32)]
  rule := "R124"
  pseudo := false
  expandsTo := none

/-- The row TICK. -/
def rowTick : OpcodeRow where
  mnemonic := "TICK"
  matchBits := 0x600000000000
  mask := 0xF00000000000
  encoding := "0110--------------------------------------------"
  fields := [("op", 47, 44)]
  rule := "R140"
  pseudo := false
  expandsTo := none

/-- The row RESERVED_7. -/
def rowReserved7 : OpcodeRow where
  mnemonic := "RESERVED_7"
  matchBits := 0x700000000000
  mask := 0xF00000000000
  encoding := "0111--------------------------------------------"
  fields := [("op", 47, 44)]
  rule := "R86"
  pseudo := false
  expandsTo := none

/-- The row RESERVED_8. -/
def rowReserved8 : OpcodeRow where
  mnemonic := "RESERVED_8"
  matchBits := 0x800000000000
  mask := 0xF00000000000
  encoding := "1000--------------------------------------------"
  fields := [("op", 47, 44)]
  rule := "R86"
  pseudo := false
  expandsTo := none

/-- The row RESERVED_9. -/
def rowReserved9 : OpcodeRow where
  mnemonic := "RESERVED_9"
  matchBits := 0x900000000000
  mask := 0xF00000000000
  encoding := "1001--------------------------------------------"
  fields := [("op", 47, 44)]
  rule := "R86"
  pseudo := false
  expandsTo := none

/-- The row RESERVED_A. -/
def rowReservedA : OpcodeRow where
  mnemonic := "RESERVED_A"
  matchBits := 0xA00000000000
  mask := 0xF00000000000
  encoding := "1010--------------------------------------------"
  fields := [("op", 47, 44)]
  rule := "R86"
  pseudo := false
  expandsTo := none

/-- The row RESERVED_B. -/
def rowReservedB : OpcodeRow where
  mnemonic := "RESERVED_B"
  matchBits := 0xB00000000000
  mask := 0xF00000000000
  encoding := "1011--------------------------------------------"
  fields := [("op", 47, 44)]
  rule := "R86"
  pseudo := false
  expandsTo := none

/-- The row RESERVED_C. -/
def rowReservedC : OpcodeRow where
  mnemonic := "RESERVED_C"
  matchBits := 0xC00000000000
  mask := 0xF00000000000
  encoding := "1100--------------------------------------------"
  fields := [("op", 47, 44)]
  rule := "R86"
  pseudo := false
  expandsTo := none

/-- The row RESERVED_D. -/
def rowReservedD : OpcodeRow where
  mnemonic := "RESERVED_D"
  matchBits := 0xD00000000000
  mask := 0xF00000000000
  encoding := "1101--------------------------------------------"
  fields := [("op", 47, 44)]
  rule := "R86"
  pseudo := false
  expandsTo := none

/-- The row RESERVED_E. -/
def rowReservedE : OpcodeRow where
  mnemonic := "RESERVED_E"
  matchBits := 0xE00000000000
  mask := 0xF00000000000
  encoding := "1110--------------------------------------------"
  fields := [("op", 47, 44)]
  rule := "R86"
  pseudo := false
  expandsTo := none

/-- The row RESERVED_F. -/
def rowReservedF : OpcodeRow where
  mnemonic := "RESERVED_F"
  matchBits := 0xF00000000000
  mask := 0xF00000000000
  encoding := "1111--------------------------------------------"
  fields := [("op", 47, 44)]
  rule := "R86"
  pseudo := false
  expandsTo := none

/-- The row LDPAT. -/
def rowLdpat : OpcodeRow where
  mnemonic := "LDPAT"
  matchBits := 0x400000000000
  mask := 0xF00000000000
  encoding := "0100----llllllllssssssss-------------ppppppppppp"
  fields := [("op", 47, 44), ("led", 39, 32), ("shape", 31, 24), ("reserved_byte", 23, 16), ("phase16", 15, 0), ("phase", 10, 0)]
  rule := "R126"
  pseudo := true
  expandsTo := some "SETPAT led, b0, (b2<<8)|b3 with b1 in data[23:16]"

/-- The row ENCPAT. -/
def rowEncpat : OpcodeRow where
  mnemonic := "ENCPAT"
  matchBits := 0x500000000000
  mask := 0xF00000000000
  encoding := "0101----llllllll--------------------------------"
  fields := [("op", 47, 44), ("led", 39, 32)]
  rule := "R127"
  pseudo := true
  expandsTo := some "RDPAT led"

/-- The eighteen rows in the table's order: seven defined commands, nine reserved opcodes, two pseudo-commands
(R92). -/
def opcodeTable : List OpcodeRow :=
  [rowNop, rowSetrate, rowSetscale, rowSettrig, rowSetpat, rowRdpat, rowTick]
    ++ [rowReserved7, rowReserved8, rowReserved9, rowReservedA, rowReservedB, rowReservedC, rowReservedD,
      rowReservedE, rowReservedF]
    ++ [rowLdpat, rowEncpat]

/-- A word is a row's command iff `(w AND mask) = match` (R92). -/
def OpcodeRow.covers (r : OpcodeRow) (w : Cmd) : Bool := w &&& r.mask == r.matchBits

/-- The bits of the word whose character in the row's `encoding` satisfies `p`. -/
def OpcodeRow.bitsWhere (r : OpcodeRow) (p : Char → Bool) : Cmd :=
  BitVec.ofNat 48 (r.encoding.toList.foldl (fun n c => 2 * n + (p c).toNat) 0)

/-- The bits of the fields of a name: all of the range from its highest to its lowest bit, none where the row has
no such field. -/
def OpcodeRow.fieldBits (r : OpcodeRow) (name : String) : Cmd :=
  r.fields.foldl (fun m f => if f.1 = name then m ||| BitVec.ofNat 48 (2 ^ (f.2.1 + 1) - 2 ^ f.2.2) else m) 0

/-- The table's mnemonic of an instruction, letter for letter. -/
def mnemonicOf : Instr → String
  | .nop => "NOP"
  | .setrate _ _ => "SETRATE"
  | .setscale _ _ => "SETSCALE"
  | .settrig _ _ => "SETTRIG"
  | .setpat _ _ _ => "SETPAT"
  | .rdpat _ => "RDPAT"
  | .tick => "TICK"
  | .reserved7 => "RESERVED_7"
  | .reserved8 => "RESERVED_8"
  | .reserved9 => "RESERVED_9"
  | .reservedA => "RESERVED_A"
  | .reservedB => "RESERVED_B"
  | .reservedC => "RESERVED_C"
  | .reservedD => "RESERVED_D"
  | .reservedE => "RESERVED_E"
  | .reservedF => "RESERVED_F"
  | .ldpat _ _ _ _ _ => "LDPAT"
  | .encpat _ => "ENCPAT"

end Sys2Proof
end

