-- ==== Sys2Proof/Machine/State.lean ====
section
/-! DEFINITION. The state of SBC-CORE: the slot file (spec/10_state.md), and the three pieces of plain data in
which this model holds the block's inputs and outputs (spec/10_state.md R44 calls them inputs and outputs of a
step, not state): what the host offers on the port, what the random source answers, and the response. -/

namespace Sys2Proof.Machine

/-- The eleven registers of one LED's slot (spec/10_state.md R20). -/
structure Slot where
  /-- The control register, stored verbatim (R21, R22). -/
  shape : Byte
  /-- The configured start position (R28). -/
  phase : Phase
  /-- The phase accumulator (R29). -/
  counter : Phase
  /-- The per-tick increment (R30). -/
  rate : Byte
  /-- The maximum brightness (R31). -/
  scale : Byte
  /-- The last written trigger input (R32). -/
  trig : Ctrl
  /-- The trigger value the last one-shot tick of this slot saw (R33). -/
  prevTrig : Ctrl
  /-- Wraps since the last live cycle began (R34). -/
  cycleCount : BitVec 2
  /-- The counter may advance; in one-shot mode, a shot is live (R35). -/
  changeEnabled : Bool
  /-- The brightness last emitted (R36). -/
  out : Byte
  /-- The most recent TICK emitted for this slot (R37). -/
  upd : Bool
  deriving DecidableEq, Repr

/-- The reset values of a slot: every register zero (spec/10_state.md R43; notes/assumptions/6.md). -/
def Slot.reset : Slot where
  shape := 0
  phase := 0
  counter := 0
  rate := 0
  scale := 0
  trig := 0
  prevTrig := 0
  cycleCount := 0
  changeEnabled := false
  out := 0
  upd := false

/-- A bank of like things, one per LED, in index order: never empty, because no block has `NUM_LEDS = 0`
(spec/00_scope.md R7; notes/assumptions/11.md). -/
structure Bank (α : Type) where
  /-- The entry of index 0. -/
  first : α
  /-- The entries of index 1 and up. -/
  rest : List α
  deriving DecidableEq, Repr

/-- `NUM_LEDS`: how many entries a bank has (R20). -/
def Bank.size {α : Type} (b : Bank α) : Nat := b.rest.length + 1

/-- The random source as the block meets it: the MODEL's own field (spec/60_exceptions.md R215;
notes/assumptions/4.md). -/
structure RandomPort where
  /-- The answers the environment has ready, first to be given first; each in 0 to 254 (R88, R244). -/
  answers : List Config.Draw
  /-- How many draws have been asked for; the free answers are numbered by it. -/
  requests : Nat
  deriving DecidableEq, Repr

/-- What the host can present at a clock edge (spec/30_encoding.md R88, spec/70_reset_and_hazards.md R230). -/
inductive Input where
  /-- a command word offered on the port -/
  | cmd (w : Cmd)
  /-- `rst` asserted -/
  | rst
  deriving DecidableEq, Repr

/-- The whole machine. -/
structure State where
  /-- The slot file (spec/10_state.md R20). -/
  slots : Bank Slot
  /-- The response channel: the pattern word the last step answered, `none` while `rsp_valid` is 0
  (spec/30_encoding.md R83, R88). MODEL's own field (notes/assumptions/3.md). -/
  rsp : Option PatWord
  /-- The random source. MODEL's own field. -/
  random : RandomPort
  /-- What the host offers, in acceptance order (spec/20_memory.md R70). MODEL's own field
  (notes/assumptions/1.md). -/
  inputs : List Input
  deriving DecidableEq, Repr

/-- No step of SBC-CORE faults: it has no exception, no cause code, no error response and no stuck state
(spec/60_exceptions.md R200), so there is no constructor, and nobody raises one. That is the spec's own word,
neither a safe nor an unsafe addition (notes/assumptions/16.md). -/
inductive Fault where
  deriving DecidableEq, Repr

/-- Why a step has no meaning. -/
inductive Refusal where
  /-- An instruction the model has no meaning for: raised only by an arm of `exec`, and safe. No arm of
  this model uses it. -/
  | notModelled (mnemonic : String)
  deriving DecidableEq, Repr

/-- A block of `n + 1` slots right after reset, nothing offered and nothing answered. -/
def State.resetOf (n : Nat) : State where
  slots := { first := Slot.reset, rest := List.replicate n Slot.reset }
  rsp := none
  random := { answers := [], requests := 0 }
  inputs := []

/-- Building a block and resetting it (spec/00_scope.md R7, spec/70_reset_and_hazards.md R230): parameters
outside their range build nothing. -/
def State.construct (p : Config.Params) : Option State :=
  if p.valid then some (State.resetOf (p.numLeds - 1)) else none

/-- The machine right after reset, for the parameters `Config.defaultParams` (notes/assumptions/5.md):
every register of every slot zero (spec/10_state.md R43). -/
def State.reset : State := State.resetOf (Config.defaultParams.numLeds - 1)

end Sys2Proof.Machine
end

