-- ==== Sys2Proof/Machine/Ops.lean ====
section
/-! DEFINITION. The named operations the meanings share: reading and writing one slot, running over all slots,
taking a draw, responding, and reset. SBC-CORE has no data memory (spec/20_memory.md R60), and it takes no
exception and returns from none (spec/60_exceptions.md R200, R205), so neither has an operation here. -/

namespace Sys2Proof.Machine

/-! ## Banks -/

/-- The entry of index `i`. Only indices below `size` are ever asked for. -/
def Bank.get {α : Type} (b : Bank α) : Nat → α
  | 0 => b.first
  | k + 1 => b.rest.getD k b.first

/-- The bank with the entry of index `i` replaced by `f` of it. -/
def Bank.modify {α : Type} (b : Bank α) (i : Nat) (f : α → α) : Bank α :=
  match i with
  | 0 => { b with first := f b.first }
  | k + 1 => { b with rest := b.rest.modify k f }

/-- `f` on every entry. -/
def Bank.map {α β : Type} (f : α → β) (b : Bank α) : Bank β :=
  { first := f b.first, rest := b.rest.map f }

/-- The entries in ascending index. -/
def Bank.toList {α : Type} (b : Bank α) : List α := b.first :: b.rest

/-- `f` on every entry of a list in order, handing `σ` on from entry to entry. -/
def threadList {α β σ : Type} (f : α → σ → β × σ) : List α → σ → List β × σ
  | [], st => ([], st)
  | a :: as, st =>
    let r := f a st
    let rs := threadList f as r.2
    (r.1 :: rs.1, rs.2)

/-- `f` on every entry in ascending index, handing `σ` on (the slot order of
spec/42_tick_gate_advance.md R141). -/
def Bank.thread {α β σ : Type} (f : α → σ → β × σ) (b : Bank α) (st : σ) : Bank β × σ :=
  let r := f b.first st
  let rs := threadList f b.rest r.2
  ({ first := r.1, rest := rs.1 }, rs.2)

/-! ## The state's fields -/

/-- The state with another slot file. -/
def State.withSlots (s : State) (b : Bank Slot) : State := { s with slots := b }

/-- The state with another random source. -/
def State.withRandom (s : State) (r : RandomPort) : State := { s with random := r }

/-- The state with another value on the response channel. -/
def State.withRsp (s : State) (r : Option PatWord) : State := { s with rsp := r }

/-- The state with other inputs waiting. -/
def State.withInputs (s : State) (l : List Input) : State := { s with inputs := l }

/-- `NUM_LEDS` of this block (spec/10_state.md R20). -/
def State.numLeds (s : State) : Nat := s.slots.size

/-- `slot[i]` (spec/00_scope.md R11). -/
def State.slot (s : State) (i : Nat) : Slot := s.slots.get i

/-- `slot[i] <- f slot[i]`: one atomic write of one slot (spec/20_memory.md R66). -/
def State.modifySlot (s : State) (i : Nat) (f : Slot → Slot) : State :=
  s.withSlots (s.slots.modify i f)

/-- `respond(v)` (spec/30_encoding.md R83). -/
def State.respond (s : State) (v : PatWord) : State := s.withRsp (some v)

/-! ## The random source -/

/-- An answer as the byte on `rnd_data` (spec/30_encoding.md R88). -/
def drawByte (d : Config.Draw) : Byte := BitVec.ofNat 8 d.val

/-- `Draw()` (spec/43_tick_output.md R178, spec/60_exceptions.md R215): the next queued answer, or a free one
where none is queued. There is always an answer (spec/70_reset_and_hazards.md R244). -/
def RandomPort.draw (r : RandomPort) : Byte × RandomPort :=
  match r.answers with
  | d :: ds => (drawByte d, { answers := ds, requests := r.requests + 1 })
  | [] => (drawByte (Config.freeDraw r.requests), { answers := [], requests := r.requests + 1 })

/-- The source after `k` draws. -/
def RandomPort.afterDraws (r : RandomPort) : Nat → RandomPort
  | 0 => r
  | k + 1 => (r.afterDraws k).draw.2

/-! ## Reset and idling -/

/-- `rst` (spec/70_reset_and_hazards.md R230): every register of every slot at its reset value, no response.
What the host offers next and what the random source will answer are outside the block and stay
(notes/assumptions/20.md). -/
def State.resetRegisters (s : State) : State :=
  (s.withSlots (s.slots.map fun _ => Slot.reset)).withRsp none

/-! ## What the output sink sees -/

/-- The calls `setBrightness(i, level)` the environment performs for this state's output bank, in ascending
`i`: one for each slot whose `upd` is 1 (spec/60_exceptions.md R214). -/
def State.emissions (s : State) : List (Nat × Byte) :=
  (List.range s.numLeds).filterMap fun i =>
    if (s.slot i).upd then some (i, (s.slot i).out) else none

end Sys2Proof.Machine
end

