-- ==== Sys2Proof/Machine/Operands.lean ====
section
/-! DEFINITION. The operand forms: the LED index, the control value, the pattern word
(spec/20_memory.md R61, R64; spec/30_encoding.md R85). -/

namespace Sys2Proof.Machine

/-- `idx(led) = led mod NUM_LEDS`: a true remainder, no bit mask, and every `led` is accepted
(spec/20_memory.md R61). -/
def ledIndex (numLeds : Nat) (led : Byte) : Nat := led.toNat % numLeds

/-- The slot a command's `led` addresses in this state (R61). -/
def State.idx (s : State) (led : Byte) : Nat := ledIndex s.numLeds led

/-- The slot a command's `led` addresses (R61). -/
def State.addressed (s : State) (led : Byte) : Slot := s.slot (s.idx led)

/-- SETRATE's and SETSCALE's stored value: the control value shifted right, narrowed to 8 bits, which loses
nothing for a 10-bit value and a shift of 2 (spec/40_control_commands.md R101, R102). -/
def shiftedCtrl (shift : Nat) (value : Ctrl) : Byte := BitVec.ofNat 8 (value.toNat >>> shift)

/-- `phase16 mod 2048` (spec/41_pattern_commands.md R120, R121). -/
def reducedPhase (phase16 : BitVec 16) : Phase := BitVec.ofNat Config.PHASE_W (phase16.toNat % Config.CYCLE)

/-- `(b2 << 8) | b3`: the written phase of LDPAT's four bytes (spec/30_encoding.md R90). -/
def phaseOfBytes (b2 b3 : Byte) : BitVec 16 := b2 ++ b3

/-- The pattern word of a slot, `{shape, 0x00, 0b00000, phase[10:8], phase[7:0]}`
(spec/41_pattern_commands.md R124). -/
def patternWord (sl : Slot) : PatWord :=
  sl.shape ++ 0x00#8 ++ 0b00000#5 ++ sl.phase.extractLsb' 8 3 ++ sl.phase.extractLsb' 0 8

end Sys2Proof.Machine
end

