-- ==== Sys2Proof/Machine/Flags.lean ====
section
/-! DEFINITION. The flags of the `shape` register and the conditions computed from a slot
(spec/10_state.md R25 to R27). SBC-CORE has no condition codes and no status register (R40). -/

namespace Sys2Proof.Machine

/-- The bit of `shape` at a flag position (spec/10_state.md R25). -/
def shapeFlag (shape : Byte) (bit : Nat) : Bool := shape.getLsbD bit

/-- The selector `shape[2:0]` (spec/10_state.md R23). -/
def shapeSel (shape : Byte) : Sel := shape.extractLsb' 0 3

/-- The trigger modes (spec/10_state.md R26). -/
inductive TrigMode where
  | oneshot
  | gateout
  | gatechange
  deriving DecidableEq, Repr

/-- `mode(shape)`: ONESHOT wins when both bits are set (spec/10_state.md R26). -/
def trigMode (shape : Byte) : TrigMode :=
  if shapeFlag shape Config.F_ONESHOT then .oneshot
  else if shapeFlag shape Config.F_GATEOUT then .gateout
  else .gatechange

/-- `missLen(shape) = 2*F_MISS2 + 1*F_MISS1`, 0 to 3 (spec/10_state.md R27). -/
def missLen (shape : Byte) : Nat :=
  2 * (shapeFlag shape Config.F_MISS2).toNat + 1 * (shapeFlag shape Config.F_MISS1).toNat

/-- `trig >= 512` (spec/10_state.md R32). -/
def trigHigh (sl : Slot) : Bool := decide (Config.TRIG_THRESHOLD ≤ sl.trig.toNat)

/-- The rising edge of one-shot mode: `trig >= 512 AND prevTrig < 512`
(spec/42_tick_gate_advance.md R142). -/
def risingEdge (sl : Slot) : Bool :=
  trigHigh sl && decide (sl.prevTrig.toNat < Config.TRIG_THRESHOLD)

/-- `Forced(i)`, on a slot as pass 2 left it: an idle one-shot, a closed GATEOUT gate, or a miss cycle
(spec/43_tick_output.md R171). -/
def forcedZero (sl : Slot) : Bool :=
  (shapeFlag sl.shape Config.F_ONESHOT && !sl.changeEnabled)
    || (shapeFlag sl.shape Config.F_GATEOUT && !shapeFlag sl.shape Config.F_ONESHOT && !sl.changeEnabled)
    || decide (sl.cycleCount ≠ 0)

end Sys2Proof.Machine
end

