-- ==== Sys2Proof/Machine/Rom.lean ====
section
/-! DEFINITION. The waveform ROM and the selector multiplexer (spec/43_tick_output.md R172 to R179,
spec/20_memory.md R63). -/

namespace Sys2Proof.Machine

/-- The seven stored rows of the ROM (spec/20_memory.md R60, R63). -/
inductive RomRow where
  | off
  | saw
  | triangle
  | square
  | pulse
  | spike
  | on
  deriving DecidableEq, Repr

/-- SAW: `c >> 3` (spec/43_tick_output.md R174). -/
def romSaw (c : Nat) : Nat := c >>> Config.SAW_SHIFT

/-- TRIANGLE: `c >> 2` rising, `(2047 - c) >> 2` falling (R175). -/
def romTriangle (c : Nat) : Nat :=
  if c < Config.HALF then c >>> Config.TRI_SHIFT else (Config.CYCLE - 1 - c) >>> Config.TRI_SHIFT

/-- SQUARE: high for the first half of the cycle (R176). -/
def romSquare (c : Nat) : Nat := if c < Config.HALF then Config.LEVEL_MAX else 0

/-- PULSE: high for the first 410 positions (R176). -/
def romPulse (c : Nat) : Nat := if c < Config.PULSE_WIDTH then Config.LEVEL_MAX else 0

/-- SPIKE: the square of the step, clamped (R177; the clamp never acts, and is kept as the spec keeps it). -/
def romSpike (c : Nat) : Nat :=
  let x := c >>> Config.SPIKE_SHIFT
  let y := if c < Config.HALF then x else Config.SPIKE_TOP - x
  min (y * y) Config.LEVEL_MAX

/-- `Rom(sel, c)` on the row's index: the exact value before it is narrowed to 8 bits. -/
def romValue : RomRow → Nat → Nat
  | .off, _ => 0
  | .saw, c => romSaw c
  | .triangle, c => romTriangle c
  | .square, c => romSquare c
  | .pulse, c => romPulse c
  | .spike, c => romSpike c
  | .on, _ => Config.LEVEL_MAX

/-- `Rom(sel, c)`: the 8-bit sample of a row at a phase position (R172 to R177). -/
def rom (r : RomRow) (c : Phase) : Byte := BitVec.ofNat 8 (romValue r c.toNat)

/-- The inputs of the multiplexer (R172): a row of the ROM, the random source, or nothing, for a code that
the layout leaves unassigned (R179). -/
inductive MuxInput where
  | row (r : RomRow)
  | random
  | unassigned
  deriving DecidableEq, Repr

/-- The multiplexer input a selector code chooses (spec/10_state.md R24). -/
def muxSelect (sel : Sel) : MuxInput :=
  if sel = Config.SEL_OFF then .row .off
  else if sel = Config.SEL_SAW then .row .saw
  else if sel = Config.SEL_TRIANGLE then .row .triangle
  else if sel = Config.SEL_SQUARE then .row .square
  else if sel = Config.SEL_PULSE then .row .pulse
  else if sel = Config.SEL_SPIKE then .row .spike
  else if sel = Config.SEL_RANDOM then .random
  else if sel = Config.SEL_ON then .row .on
  else .unassigned

end Sys2Proof.Machine
end

