-- ==== Sys2Proof/Machine/Scaler.lean ====
section
/-! DEFINITION. The brightness scaler: multiply and keep the high byte, optional inversion, floor of 1
(spec/43_tick_output.md R180 to R182). Each stage computes on exact naturals and is narrowed at its end. -/

namespace Sys2Proof.Machine

/-- `scaled = (base * scale) >> 8`, truncated (spec/43_tick_output.md R180). -/
def scaled (base scale : Byte) : Byte :=
  BitVec.ofNat 8 ((base.toNat * scale.toNat) >>> Config.SCALE_OUT_SHIFT)

/-- `inv`: 255 minus the scaled sample where `F_INVERT` is set, else the scaled sample (R181). -/
def inverted (shape : Byte) (v : Byte) : Byte :=
  if shapeFlag shape Config.F_INVERT then BitVec.ofNat 8 (Config.LEVEL_MAX - v.toNat) else v

/-- `level`: a zero is bumped to the floor of 1 (R182). -/
def floored (v : Byte) : Byte := if v = 0 then BitVec.ofNat 8 Config.FLOOR else v

/-- The level a base sample gives in a slot that is not forced (R170: scaler, inversion, floor, in order). -/
def levelOf (shape scale base : Byte) : Byte := floored (inverted shape (scaled base scale))

end Sys2Proof.Machine
end

