-- ==== Sys2Proof/Machine/Control.lean ====
section
/-! DEFINITION. The control commands: NOP, SETRATE, SETSCALE, SETTRIG (spec/40_control_commands.md). -/

namespace Sys2Proof.Machine

/-- NOP: any state, the same state (spec/40_control_commands.md R100). -/
def execNop (s : State) : Host.Outcome State Fault Refusal := .next s

/-- SETRATE led, value: `slot[idx(led)].rate <- value >> 2` (spec/40_control_commands.md R101). -/
def execSetrate (led : Byte) (value : Ctrl) (s : State) : Host.Outcome State Fault Refusal :=
  .next (s.modifySlot (s.idx led) fun sl => { sl with rate := shiftedCtrl Config.RATE_SHIFT value })

/-- SETSCALE led, value: `slot[idx(led)].scale <- value >> 2` (spec/40_control_commands.md R102). -/
def execSetscale (led : Byte) (value : Ctrl) (s : State) : Host.Outcome State Fault Refusal :=
  .next (s.modifySlot (s.idx led) fun sl => { sl with scale := shiftedCtrl Config.SCALE_SHIFT value })

/-- SETTRIG led, value: `slot[idx(led)].trig <- value`, not shifted (spec/40_control_commands.md R103). -/
def execSettrig (led : Byte) (value : Ctrl) (s : State) : Host.Outcome State Fault Refusal :=
  .next (s.modifySlot (s.idx led) fun sl => { sl with trig := value })

end Sys2Proof.Machine
end

