-- ==== Sys2Proof/Machine/Pattern.lean ====
section
/-! DEFINITION. The pattern commands: SETPAT, RDPAT, and the pseudo-instructions LDPAT and ENCPAT
(spec/41_pattern_commands.md). -/

namespace Sys2Proof.Machine

/-- The five writes of SETPAT, together; every other register of the slot stays
(spec/41_pattern_commands.md R120). -/
def setPattern (shape : Byte) (phase16 : BitVec 16) (sl : Slot) : Slot :=
  { sl with
    shape := shape
    phase := reducedPhase phase16
    counter := reducedPhase phase16
    cycleCount := 0
    changeEnabled := false }

/-- SETPAT led, shape, phase (spec/41_pattern_commands.md R120). -/
def execSetpat (led shape : Byte) (phase16 : BitVec 16) (s : State) : Host.Outcome State Fault Refusal :=
  .next (s.modifySlot (s.idx led) (setPattern shape phase16))

/-- RDPAT led: respond with the pattern word of the slot, write nothing (spec/41_pattern_commands.md R124). -/
def execRdpat (led : Byte) (s : State) : Host.Outcome State Fault Refusal :=
  .next (s.respond (patternWord (s.addressed led)))

/-- LDPAT led, b0, b1, b2, b3: SETPAT with `shape = b0` and `phase = (b2 << 8) | b3`; `b1` is not looked at
(spec/41_pattern_commands.md R126, spec/30_encoding.md R90). -/
def execLdpat (led b0 _b1 b2 b3 : Byte) (s : State) : Host.Outcome State Fault Refusal :=
  .next (s.modifySlot (s.idx led) (setPattern b0 (phaseOfBytes b2 b3)))

/-- ENCPAT led: RDPAT led (spec/41_pattern_commands.md R127). -/
def execEncpat (led : Byte) (s : State) : Host.Outcome State Fault Refusal :=
  .next (s.respond (patternWord (s.addressed led)))

end Sys2Proof.Machine
end

