-- ==== Sys2Proof/Machine/Reserved.lean ====
section
/-! DEFINITION. The nine reserved opcodes: accepted, no state changed, no response, as NOP
(spec/30_encoding.md R86; the spec's own choice, notes/assumptions/9.md). -/

namespace Sys2Proof.Machine

/-- Reserved opcode 0x7: executes as NOP (spec/30_encoding.md R86). -/
def execReserved7 (s : State) : Host.Outcome State Fault Refusal := .next s

/-- Reserved opcode 0x8: executes as NOP (spec/30_encoding.md R86). -/
def execReserved8 (s : State) : Host.Outcome State Fault Refusal := .next s

/-- Reserved opcode 0x9: executes as NOP (spec/30_encoding.md R86). -/
def execReserved9 (s : State) : Host.Outcome State Fault Refusal := .next s

/-- Reserved opcode 0xA: executes as NOP (spec/30_encoding.md R86). -/
def execReservedA (s : State) : Host.Outcome State Fault Refusal := .next s

/-- Reserved opcode 0xB: executes as NOP (spec/30_encoding.md R86). -/
def execReservedB (s : State) : Host.Outcome State Fault Refusal := .next s

/-- Reserved opcode 0xC: executes as NOP (spec/30_encoding.md R86). -/
def execReservedC (s : State) : Host.Outcome State Fault Refusal := .next s

/-- Reserved opcode 0xD: executes as NOP (spec/30_encoding.md R86). -/
def execReservedD (s : State) : Host.Outcome State Fault Refusal := .next s

/-- Reserved opcode 0xE: executes as NOP (spec/30_encoding.md R86). -/
def execReservedE (s : State) : Host.Outcome State Fault Refusal := .next s

/-- Reserved opcode 0xF: executes as NOP (spec/30_encoding.md R86). -/
def execReservedF (s : State) : Host.Outcome State Fault Refusal := .next s

end Sys2Proof.Machine
end

