-- ==== Sys2Proof/Machine/Tick.lean ====
section
/-! DEFINITION. TICK: the three passes (spec/42_tick_gate_advance.md R140 to R148, spec/43_tick_output.md R170
to R183). -/

namespace Sys2Proof.Machine

/-- A slot inside one TICK, with `wrapped[i]`, which lives only there (spec/10_state.md R40). -/
structure Lane where
  slot : Slot
  wrapped : Bool
  deriving DecidableEq, Repr

/-- A TICK begins with `wrapped[i] = 0` for every slot (spec/42_tick_gate_advance.md R140, R144). -/
def Lane.start (sl : Slot) : Lane := { slot := sl, wrapped := false }

/-- Pass 1 on a slot: in one-shot mode latch the edge and copy `trig`; in gate mode take the level, and leave
`prevTrig` (spec/42_tick_gate_advance.md R142, R143). -/
def gateSlot (sl : Slot) : Slot :=
  match trigMode sl.shape with
  | .oneshot => { sl with changeEnabled := sl.changeEnabled || risingEdge sl, prevTrig := sl.trig }
  | .gateout => { sl with changeEnabled := trigHigh sl }
  | .gatechange => { sl with changeEnabled := trigHigh sl }

/-- `changeEnabled <- 0` in one-shot mode: the end of a shot (R147, R148). -/
def endShot (sl : Slot) : Slot :=
  if trigMode sl.shape = .oneshot then { sl with changeEnabled := false } else sl

/-- `MissAccounting(i)`, on a wrap (R147 for `missLen > 0`, R148 for `missLen = 0`). -/
def missAccounting (sl : Slot) : Slot :=
  if 0 < missLen sl.shape then
    if sl.cycleCount.toNat = missLen sl.shape then endShot { sl with cycleCount := 0 }
    else { sl with cycleCount := sl.cycleCount + 1 }
  else endShot { sl with cycleCount := 0 }

/-- The sum `t = counter + rate`, exact (R145). -/
def advancedSum (sl : Slot) : Nat := sl.counter.toNat + sl.rate.toNat

/-- `Pass1(i)`. -/
def pass1 (l : Lane) : Lane := { l with slot := gateSlot l.slot }

/-- `Pass2(i)`: advance an enabled slot; a sum of 2048 or more wraps once, keeping the overshoot, and counts a
cycle (R144 to R146). -/
def pass2 (l : Lane) : Lane :=
  if l.slot.changeEnabled then
    if Config.CYCLE ≤ advancedSum l.slot then
      { slot := missAccounting
          { l.slot with counter := BitVec.ofNat Config.PHASE_W (advancedSum l.slot - Config.CYCLE) }
        wrapped := true }
    else { l with slot := { l.slot with counter := BitVec.ofNat Config.PHASE_W (advancedSum l.slot) } }
  else l

/-- An emission: `out <- level`, `upd <- 1` (spec/43_tick_output.md R183). -/
def emit (level : Byte) (sl : Slot) : Slot := { sl with out := level, upd := true }

/-- No emission: `out` holds, `upd <- 0` (R183). -/
def hold (sl : Slot) : Slot := { sl with upd := false }

/-- The base the block makes of the byte on `rnd_data`: that byte, unchecked, for all 256 of them. A 255 would be
base 255 (spec/60_exceptions.md R201 item 11), though the source never gives one (R244). -/
def drawnBase (rndData : Byte) : Byte := rndData

/-- The base sample of a slot that is not forced: a ROM row at the counter, one draw if the slot selects
RANDOM and wrapped in this tick, no sample if it selects RANDOM and did not (R172, R178), and 0 for an
unassigned code (R179). -/
def baseSample (l : Lane) (r : RandomPort) : Option Byte × RandomPort :=
  match muxSelect (shapeSel l.slot.shape) with
  | .row row => (some (rom row l.slot.counter), r)
  | .random => if l.wrapped then (some (drawnBase r.draw.1), r.draw.2) else (none, r)
  | .unassigned => (some 0, r)

/-- `Pass3(i)` (R170): a forced zero bypasses sampling, scaler, inversion and floor (R171). -/
def pass3 (l : Lane) (r : RandomPort) : Slot × RandomPort :=
  if forcedZero l.slot then (emit 0 l.slot, r)
  else
    match baseSample l r with
    | (some base, r') => (emit (levelOf l.slot.shape l.slot.scale base) l.slot, r')
    | (none, r') => (hold l.slot, r')

/-- The slot as passes 1 and 2 leave it, and whether it wrapped. -/
def afterPass2 (sl : Slot) : Lane := pass2 (pass1 (Lane.start sl))

/-- The slot asks for a draw in a TICK: it is not forced, selects RANDOM and wrapped in this tick (R178). -/
def asksDraw (sl : Slot) : Bool :=
  !forcedZero (afterPass2 sl).slot
    && decide (muxSelect (shapeSel sl.shape) = .random)
    && (afterPass2 sl).wrapped

/-- How many draws the slots of index below `i` ask for in a TICK: the draws asked before slot `i`'s. -/
def State.drawsBefore (s : State) (i : Nat) : Nat :=
  ((List.range i).filter fun j => asksDraw (s.slot j)).length

/-- The whole TICK of one slot, given the random source as it finds it (R141: the passes may be fused). -/
def tickSlot (sl : Slot) (r : RandomPort) : Slot × RandomPort := pass3 (afterPass2 sl) r

/-- TICK: `wrapped` cleared, then the three passes, each over every slot in ascending index
(spec/42_tick_gate_advance.md R140, R141). -/
def execTick (s : State) : Host.Outcome State Fault Refusal :=
  let lanes := s.slots.map Lane.start
  let lanes1 := lanes.map pass1
  let lanes2 := lanes1.map pass2
  let r := lanes2.thread pass3 s.random
  .next ((s.withSlots r.1).withRandom r.2)

end Sys2Proof.Machine
end

