-- ==== Sys2Proof/Machine/Dispatch.lean ====
section
/-! DEFINITION. One arm per command: each calls its meaning. -/

namespace Sys2Proof.Machine

def exec (i : Instr) (s : State) : Host.Outcome State Fault Refusal :=
  match i with
  | .nop => Sys2Proof.Machine.execNop s
  | .setrate led value => Sys2Proof.Machine.execSetrate led value s
  | .setscale led value => Sys2Proof.Machine.execSetscale led value s
  | .settrig led value => Sys2Proof.Machine.execSettrig led value s
  | .setpat led shape phase16 => Sys2Proof.Machine.execSetpat led shape phase16 s
  | .rdpat led => Sys2Proof.Machine.execRdpat led s
  | .tick => Sys2Proof.Machine.execTick s
  | .reserved7 => Sys2Proof.Machine.execReserved7 s
  | .reserved8 => Sys2Proof.Machine.execReserved8 s
  | .reserved9 => Sys2Proof.Machine.execReserved9 s
  | .reservedA => Sys2Proof.Machine.execReservedA s
  | .reservedB => Sys2Proof.Machine.execReservedB s
  | .reservedC => Sys2Proof.Machine.execReservedC s
  | .reservedD => Sys2Proof.Machine.execReservedD s
  | .reservedE => Sys2Proof.Machine.execReservedE s
  | .reservedF => Sys2Proof.Machine.execReservedF s
  | .ldpat led b0 b1 b2 b3 => Sys2Proof.Machine.execLdpat led b0 b1 b2 b3 s
  | .encpat led => Sys2Proof.Machine.execEncpat led s

end Sys2Proof.Machine
end

