-- ==== Sys2Proof/Machine/Step.lean ====
section
/-! DEFINITION. One step: the block takes the next thing the host presents, and does it whole
(spec/20_memory.md R70; spec/30_encoding.md R88). SBC-CORE fetches nothing (spec/10_state.md R41): a command
comes from the port, not from a program. -/

namespace Sys2Proof.Machine

/-- The state in which a waiting input has been taken: it has left the port, and the response channel is idle
again, for `rsp_valid` is 1 only at an RDPAT's own completion (spec/30_encoding.md R83, R88). -/
def State.accept (s : State) (rest : List Input) : State := (s.withInputs rest).withRsp none

/-- One step. With nothing offered no register changes (spec/00_scope.md R6); `rst` resets (R230); a command
word is decoded and executed completely (R70, R91). -/
def step (s : State) : Host.Outcome State Fault Refusal :=
  match s.inputs with
  | [] => .next (s.accept [])
  | .rst :: rest => .next (s.accept rest).resetRegisters
  | .cmd w :: rest => exec (decode w) (s.accept rest)

/-- The state in which the host offers a command word, given by its bits, before anything else it offers:
the next step executes exactly that command (notes/assumptions/2.md). -/
def State.withFetchWord (s : State) (nbits w : Nat) : State :=
  s.withInputs (.cmd (BitVec.ofNat 48 (w % 2 ^ nbits)) :: s.inputs)

end Sys2Proof.Machine
end

