-- ==== Sys2Proof/Machine/Assembler.lean ====
section
/-! DEFINITION. The assembler notation of spec/30_encoding.md R89 and R90: lines of text, operand ranges, shape
expressions, repeat counts. It stands outside the machine: nothing in `step` uses it. -/

namespace Sys2Proof.Machine

/-- The names a shape expression adds up (R89). -/
inductive ShapeName where
  | off | saw | triangle | square | pulse | spike | random | on
  | invert | miss1 | miss2 | gateout | oneshot | gatechange
  deriving DecidableEq, Repr

/-- The name is one of the eight waveform kinds, of which an expression may hold at most one (R89). -/
def ShapeName.isKind : ShapeName → Bool
  | .off | .saw | .triangle | .square | .pulse | .spike | .random | .on => true
  | .invert | .miss1 | .miss2 | .gateout | .oneshot | .gatechange => false

/-- A name's `ShapeLayout` value: a kind's code, a flag's mask, 0 for GATECHANGE (R89;
spec/10_state.md R24, R25). -/
def ShapeName.value : ShapeName → Nat
  | .off => Config.SEL_OFF.toNat
  | .saw => Config.SEL_SAW.toNat
  | .triangle => Config.SEL_TRIANGLE.toNat
  | .square => Config.SEL_SQUARE.toNat
  | .pulse => Config.SEL_PULSE.toNat
  | .spike => Config.SEL_SPIKE.toNat
  | .random => Config.SEL_RANDOM.toNat
  | .on => Config.SEL_ON.toNat
  | .invert => 2 ^ Config.F_INVERT
  | .miss1 => 2 ^ Config.F_MISS1
  | .miss2 => 2 ^ Config.F_MISS2
  | .gateout => 2 ^ Config.F_GATEOUT
  | .oneshot => 2 ^ Config.F_ONESHOT
  | .gatechange => 0

/-- The shape operand of SETPAT: a number or a sum of names (R89). -/
inductive ShapeOperand where
  | number (n : Nat)
  | names (l : List ShapeName)
  deriving DecidableEq, Repr

/-- One line of assembler, operands as written, before any range check (R89, R90). -/
inductive AsmLine where
  | nop
  | setrate (led value : Nat)
  | setscale (led value : Nat)
  | settrig (led value : Nat)
  | setpat (led : Nat) (shape : ShapeOperand) (phase : Nat)
  | rdpat (led : Nat)
  | tick (count : Nat)
  | ldpat (led b0 b1 b2 b3 : Nat)
  | encpat (led : Nat)
  deriving DecidableEq, Repr

/-- Why a line does not assemble. -/
inductive AsmError where
  /-- an operand out of its range (R89) -/
  | outOfRange
  /-- more than one waveform kind in a shape expression (R89) -/
  | twoKinds
  /-- a name that is none of R89's shape names -/
  | unknownName
  /-- text that is no decimal and no `0x` number -/
  | badNumber
  /-- a mnemonic of neither R89 nor R90, or another operand list than it takes -/
  | badLine
  deriving DecidableEq, Repr

/-- A number as a field of `n` bits, an error where it does not fit (R89: an operand out of its range is an
assembler error). -/
def operand (n value : Nat) : Except AsmError (BitVec n) :=
  if value < 2 ^ n then .ok (BitVec.ofNat n value) else .error .outOfRange

/-- The number a shape operand stands for (R89). -/
def shapeNumber : ShapeOperand → Except AsmError Nat
  | .number n => .ok n
  | .names l =>
    if (l.filter ShapeName.isKind).length ≤ 1 then .ok ((l.map ShapeName.value).sum) else .error .twoKinds

/-- The commands a line stands for: one, or `n` TICKs for `TICK *n` (R89). -/
def assemble : AsmLine → Except AsmError (List Instr)
  | .nop => .ok [.nop]
  | .setrate led value => do return [.setrate (← operand 8 led) (← operand 10 value)]
  | .setscale led value => do return [.setscale (← operand 8 led) (← operand 10 value)]
  | .settrig led value => do return [.settrig (← operand 8 led) (← operand 10 value)]
  | .setpat led shape phase => do
    let n ← shapeNumber shape
    return [.setpat (← operand 8 led) (← operand 8 n) (← operand 16 phase)]
  | .rdpat led => do return [.rdpat (← operand 8 led)]
  | .tick count => .ok (List.replicate count .tick)
  | .ldpat led b0 b1 b2 b3 => do
    return [.ldpat (← operand 8 led) (← operand 8 b0) (← operand 8 b1) (← operand 8 b2) (← operand 8 b3)]
  | .encpat led => do return [.encpat (← operand 8 led)]

/-! ## Text -/

/-- The text cut at every `c`. -/
def cutAt (c : Char) : List Char → List (List Char)
  | [] => [[]]
  | x :: xs =>
    match cutAt c xs with
    | [] => [[]]
    | w :: ws => if x = c then [] :: w :: ws else (x :: w) :: ws

/-- A blank of a line. -/
def isBlank (c : Char) : Bool := c = ' ' || c = '\t'

/-- The text without the blanks before and after it. -/
def trimmed (l : List Char) : List Char := ((l.dropWhile isBlank).reverse.dropWhile isBlank).reverse

/-- The value of a digit, decimal or hexadecimal. -/
def digitValue (c : Char) : Option Nat :=
  if '0' ≤ c ∧ c ≤ '9' then some (c.toNat - '0'.toNat)
  else if 'a' ≤ c ∧ c ≤ 'f' then some (c.toNat - 'a'.toNat + 10)
  else if 'A' ≤ c ∧ c ≤ 'F' then some (c.toNat - 'A'.toNat + 10)
  else none

/-- The number written by digits of a radix, most significant first. -/
def digitsValue (radix : Nat) : List Char → Nat → Except AsmError Nat
  | [], acc => .ok acc
  | c :: cs, acc =>
    match digitValue c with
    | some d => if d < radix then digitsValue radix cs (acc * radix + d) else .error .badNumber
    | none => .error .badNumber

/-- A number, decimal or `0x` hexadecimal (R89). -/
def parseNumber : List Char → Except AsmError Nat
  | [] => .error .badNumber
  | ['0', 'x'] => .error .badNumber
  | '0' :: 'x' :: ds => digitsValue 16 ds 0
  | ds => digitsValue 10 ds 0

/-- A shape name as R89 spells it. -/
def parseShapeName (l : List Char) : Except AsmError ShapeName :=
  if l = ['O', 'F', 'F'] then .ok .off
  else if l = ['S', 'A', 'W'] then .ok .saw
  else if l = ['T', 'R', 'I', 'A', 'N', 'G', 'L', 'E'] then .ok .triangle
  else if l = ['S', 'Q', 'U', 'A', 'R', 'E'] then .ok .square
  else if l = ['P', 'U', 'L', 'S', 'E'] then .ok .pulse
  else if l = ['S', 'P', 'I', 'K', 'E'] then .ok .spike
  else if l = ['R', 'A', 'N', 'D', 'O', 'M'] then .ok .random
  else if l = ['O', 'N'] then .ok .on
  else if l = ['I', 'N', 'V', 'E', 'R', 'T'] then .ok .invert
  else if l = ['M', 'I', 'S', 'S', '1'] then .ok .miss1
  else if l = ['M', 'I', 'S', 'S', '2'] then .ok .miss2
  else if l = ['G', 'A', 'T', 'E', 'O', 'U', 'T'] then .ok .gateout
  else if l = ['O', 'N', 'E', 'S', 'H', 'O', 'T'] then .ok .oneshot
  else if l = ['G', 'A', 'T', 'E', 'C', 'H', 'A', 'N', 'G', 'E'] then .ok .gatechange
  else .error .unknownName

/-- The shape names of the parts of a sum. -/
def parseShapeNames : List (List Char) → Except AsmError (List ShapeName)
  | [] => .ok []
  | p :: ps => do return (← parseShapeName (trimmed p)) :: (← parseShapeNames ps)

/-- A shape operand: a number where it begins with a digit, else a sum of names (R89). -/
def parseShape (l : List Char) : Except AsmError ShapeOperand :=
  match l with
  | c :: _ =>
    if '0' ≤ c ∧ c ≤ '9' then do return .number (← parseNumber l)
    else do return .names (← parseShapeNames (cutAt '+' l))
  | [] => .error .badLine

/-- The operand texts of a line after its mnemonic: none where nothing stands there, else cut at the commas. -/
def operandTexts (l : List Char) : List (List Char) :=
  match trimmed l with
  | [] => []
  | t => (cutAt ',' t).map trimmed

/-- The repeat count of TICK: 1 where none is written, `n` for `*n` (R89). -/
def parseRepeat : List (List Char) → Except AsmError Nat
  | [] => .ok 1
  | [('*' :: ds)] => parseNumber (trimmed ds)
  | _ => .error .badLine

/-- A mnemonic with its operand texts (R89, R90). -/
def parseCommand (mnemonic : List Char) (ops : List (List Char)) : Except AsmError AsmLine :=
  if mnemonic = ['T', 'I', 'C', 'K'] then do return .tick (← parseRepeat ops)
  else if mnemonic = ['S', 'E', 'T', 'P', 'A', 'T'] then
    match ops with
    | [led, shape, phase] => do return .setpat (← parseNumber led) (← parseShape shape) (← parseNumber phase)
    | _ => .error .badLine
  else
    match ops with
    | [] => if mnemonic = ['N', 'O', 'P'] then .ok .nop else .error .badLine
    | [led] =>
      if mnemonic = ['R', 'D', 'P', 'A', 'T'] then do return .rdpat (← parseNumber led)
      else if mnemonic = ['E', 'N', 'C', 'P', 'A', 'T'] then do return .encpat (← parseNumber led)
      else .error .badLine
    | [led, value] =>
      if mnemonic = ['S', 'E', 'T', 'R', 'A', 'T', 'E'] then
        do return .setrate (← parseNumber led) (← parseNumber value)
      else if mnemonic = ['S', 'E', 'T', 'S', 'C', 'A', 'L', 'E'] then
        do return .setscale (← parseNumber led) (← parseNumber value)
      else if mnemonic = ['S', 'E', 'T', 'T', 'R', 'I', 'G'] then
        do return .settrig (← parseNumber led) (← parseNumber value)
      else .error .badLine
    | [led, b0, b1, b2, b3] =>
      if mnemonic = ['L', 'D', 'P', 'A', 'T'] then
        do
          let p ← parseNumber led
          let n0 ← parseNumber b0
          let n1 ← parseNumber b1
          let n2 ← parseNumber b2
          let n3 ← parseNumber b3
          return .ldpat p n0 n1 n2 n3
      else .error .badLine
    | _ => .error .badLine

/-- The commands a line of text stands for: none for a blank line or a comment, `;` starting one (R89). -/
def assembleLine (text : List Char) : Except AsmError (List Instr) :=
  match trimmed (text.takeWhile (· ≠ ';')) with
  | [] => .ok []
  | line => do
    assemble (← parseCommand (line.takeWhile fun c => !isBlank c) (operandTexts (line.dropWhile fun c => !isBlank c)))

/-- The command words a program's lines stand for, in order. -/
def assembleProgram : List (List Char) → Except AsmError (List Cmd)
  | [] => .ok []
  | l :: ls => do
    let here ← assembleLine l
    let more ← assembleProgram ls
    return here.map encode ++ more

end Sys2Proof.Machine
end

