-- ==== Sys2Proof/Safety.lean ====
section
/-! DEFINITION. What the spec promises of every state and every run, in the terms the statements use: the
invariants of spec/10_state.md R39 and spec/42_tick_gate_advance.md R150, what a configuration command may
touch (spec/20_memory.md R71 c), and a run of TICKs. SBC-CORE has no unsafe outcome: no step faults and none is
refused (spec/60_exceptions.md R200). -/

namespace Sys2Proof.Machine

/-- `cycleCount <= missLen(shape)` (spec/10_state.md R39 b). -/
def Slot.missBounded (sl : Slot) : Prop := sl.cycleCount.toNat ≤ missLen sl.shape

/-- A one-shot slot that is idle is in no miss cycle: the idle state of spec/42_tick_gate_advance.md R150 has
`cycleCount = 0`. -/
def Slot.idleAtRest (sl : Slot) : Prop :=
  trigMode sl.shape = .oneshot → sl.changeEnabled = false → sl.cycleCount = 0

/-- The block has at most as many slots as the LED index reaches; at least one it has by construction
(spec/00_scope.md R7). -/
def State.sizeOk (s : State) : Prop := s.numLeds ≤ Config.LED_INDEX_SPAN

/-- Every slot keeps `cycleCount <= missLen(shape)` (spec/10_state.md R39 b). -/
def State.missBounded (s : State) : Prop := ∀ i, i < s.numLeds → (s.slot i).missBounded

/-- Every idle one-shot slot is at rest (spec/42_tick_gate_advance.md R150). -/
def State.idleAtRest (s : State) : Prop := ∀ i, i < s.numLeds → (s.slot i).idleAtRest

/-- The invariant: what every run from reset keeps. -/
structure State.Inv (s : State) : Prop where
  size : s.sizeOk
  miss : s.missBounded
  idle : s.idleAtRest

/-! ## The words of R142 to R171, as conditions on a slot before or after a TICK -/

/-- The rising edge of one-shot mode: `trig >= 512` and `prevTrig < 512`
(spec/42_tick_gate_advance.md R142). -/
def Slot.rising (sl : Slot) : Prop := 512 ≤ sl.trig.toNat ∧ sl.prevTrig.toNat < 512

/-- The slot is allowed to advance in a TICK: in one-shot mode a live shot or a rising edge, in gate mode an
open gate (R142, R143). -/
def Slot.enabled (sl : Slot) : Prop :=
  (trigMode sl.shape = .oneshot ∧ (sl.changeEnabled = true ∨ sl.rising))
    ∨ (trigMode sl.shape ≠ .oneshot ∧ 512 ≤ sl.trig.toNat)

/-- `counter + rate` reaches a whole cycle (R145). -/
def Slot.sumWraps (sl : Slot) : Prop := 2048 ≤ sl.counter.toNat + sl.rate.toNat

/-- The slot wraps in a TICK (spec/00_scope.md R13; R145). -/
def Slot.wraps (sl : Slot) : Prop := sl.enabled ∧ sl.sumWraps

/-- A wrap of this slot ends the pattern: no MISS flag, or the last miss cycle (R147, R148). -/
def Slot.endsPattern (sl : Slot) : Prop := missLen sl.shape = 0 ∨ sl.cycleCount.toNat = missLen sl.shape

/-- One of the three override cases holds, on a slot after a TICK (spec/43_tick_output.md R171). -/
def Slot.isForced (sl : Slot) : Prop :=
  (sl.shape.getLsbD 7 = true ∧ sl.changeEnabled = false)
    ∨ (sl.shape.getLsbD 6 = true ∧ sl.shape.getLsbD 7 = false ∧ sl.changeEnabled = false)
    ∨ sl.cycleCount ≠ 0

/-- The slot's selector is the code of RANDOM (spec/10_state.md R24). -/
def Slot.selectsRandom (sl : Slot) : Prop := sl.shape.extractLsb' 0 3 = 6

/-- After the TICK the slot has emitted a true zero (R171). -/
def Slot.emitsZero (sl : Slot) : Prop := sl.out = 0 ∧ sl.upd = true

/-- After the TICK the slot has emitted the level of its ROM row at the counter it now has
(spec/43_tick_output.md R170, R172), if it selects a row. -/
def Slot.showsWaveform (sl : Slot) : Prop :=
  ∀ row, muxSelect (shapeSel sl.shape) = .row row →
    sl.out = levelOf sl.shape sl.scale (rom row sl.counter) ∧ sl.upd = true

/-- Slot `i` takes a draw in a TICK of `s`. -/
def State.drawsAt (s : State) (i : Nat) : Prop := s.drawsBefore (i + 1) = s.drawsBefore i + 1

/-- Slot `i` takes no draw in a TICK of `s`. -/
def State.noDrawAt (s : State) (i : Nat) : Prop := s.drawsBefore (i + 1) = s.drawsBefore i

/-- `Draw()` of slot `i` in a TICK of `s`: the answer after those the slots before it take
(spec/43_tick_output.md R178, in slot order). -/
def State.drawOf (s : State) (i : Nat) : Byte := (s.random.afterDraws (s.drawsBefore i)).draw.1

/-! ## Frames and runs -/

/-- Nothing outside the slot file changed between `s` and `t`: neither the response channel, nor the random
source, nor the inputs waiting. -/
def State.sameOutside (s t : State) : Prop := t.rsp = s.rsp ∧ t.random = s.random ∧ t.inputs = s.inputs

/-- Between `s` and `t` at most slot `i` changed, and nothing outside the slot file
(spec/20_memory.md R71 c: a configuration command has no cross-LED effect). -/
def State.onlySlot (s t : State) (i : Nat) : Prop :=
  t.numLeds = s.numLeds ∧ (∀ j, j < s.numLeds → j ≠ i → t.slot j = s.slot j) ∧ s.sameOutside t

/-- `n` TICKs executed one after the other. -/
def ticks : Nat → State → Host.Outcome State Fault Refusal
  | 0, s => .next s
  | n + 1, s =>
    match exec .tick s with
    | .next t => ticks n t
    | .fault f => .fault f
    | .refused r => .refused r

end Sys2Proof.Machine
end

