-- ==== Sys2Proof/Certificates/Slice0/Obligations.lean ====
section
/-! DEFINITION. The statements about SBC-CORE, each from numbered rules of spec/. Where a frame also names the
response channel, the waiting inputs or the random source, that clause is about the model's own fields
(notes/assumptions/1.md, 3.md, 4.md, DESIGN CHOICE). -/

open Sys2Proof Sys2Proof.Machine

/-! ## Control commands -/

/-- R100: NOP, and every word whose opcode field is 0 whatever its other bits, leaves every state as it is. (The
spec's own decision D2.) -/
def Obligations.NopLeavesEveryState : Prop :=
  (∀ s : State, exec .nop s = .next s)
    ∧ (∀ (s : State) (w : Cmd), w.extractLsb' 44 4 = 0#4 → exec (decode w) s = .next s)
    ∧ encode .nop = 0

/-- R86: a reserved opcode is accepted, changes nothing, answers nothing, and is not decoded as NOP. (The spec's
own decision D2.) -/
def Obligations.ReservedOpcodesChangeNothing : Prop :=
  (∀ (s : State) (i : Instr),
      i ∈ [Instr.reserved7, .reserved8, .reserved9, .reservedA, .reservedB, .reservedC, .reservedD, .reservedE,
        .reservedF] → exec i s = .next s)
    ∧ ∀ (s : State) (w : Cmd), 7 ≤ (w.extractLsb' 44 4).toNat →
        exec (decode w) s = .next s ∧ decode w ≠ .nop

/-- R101: SETRATE writes `rate` of the addressed slot with `value[9:2]` and writes nothing else; its operands
are `cmd[39:32]` and `cmd[9:0]`, whatever the other bits. -/
def Obligations.SetrateStoresQuarterValue : Prop :=
  (∀ (led : Byte) (v : Ctrl) (s : State), ∃ t, exec (.setrate led v) s = .next t
      ∧ s.onlySlot t (led.toNat % s.numLeds)
      ∧ t.slot (led.toNat % s.numLeds)
          = { s.slot (led.toNat % s.numLeds) with rate := v.extractLsb' 2 8 })
    ∧ ∀ w : Cmd, w.extractLsb' 44 4 = 1#4 → decode w = .setrate (w.extractLsb' 32 8) (w.extractLsb' 0 10)

/-- R102: SETSCALE writes `scale` of the addressed slot with `value[9:2]` and writes nothing else. -/
def Obligations.SetscaleStoresQuarterValue : Prop :=
  (∀ (led : Byte) (v : Ctrl) (s : State), ∃ t, exec (.setscale led v) s = .next t
      ∧ s.onlySlot t (led.toNat % s.numLeds)
      ∧ t.slot (led.toNat % s.numLeds)
          = { s.slot (led.toNat % s.numLeds) with scale := v.extractLsb' 2 8 })
    ∧ ∀ w : Cmd, w.extractLsb' 44 4 = 2#4 → decode w = .setscale (w.extractLsb' 32 8) (w.extractLsb' 0 10)

/-- R103: SETTRIG writes `trig` of the addressed slot with `value`, unshifted, and writes nothing else; in
particular neither `prevTrig` nor `changeEnabled`. -/
def Obligations.SettrigStoresValueVerbatim : Prop :=
  (∀ (led : Byte) (v : Ctrl) (s : State), ∃ t, exec (.settrig led v) s = .next t
      ∧ s.onlySlot t (led.toNat % s.numLeds)
      ∧ t.slot (led.toNat % s.numLeds) = { s.slot (led.toNat % s.numLeds) with trig := v })
    ∧ ∀ w : Cmd, w.extractLsb' 44 4 = 3#4 → decode w = .settrig (w.extractLsb' 32 8) (w.extractLsb' 0 10)

/-- R67, R71 b: a control value overwritten before anything reads it was never there; so each of the three
control commands, and SETPAT, issued twice is the last one issued alone. -/
def Obligations.LastWriteOfASlotWins : Prop :=
  ∀ (led : Byte) (s : State),
    (∀ v v' : Ctrl, ∃ t u, exec (.setrate led v) s = .next t ∧ exec (.setrate led v') t = .next u
        ∧ exec (.setrate led v') s = .next u)
    ∧ (∀ v v' : Ctrl, ∃ t u, exec (.setscale led v) s = .next t ∧ exec (.setscale led v') t = .next u
        ∧ exec (.setscale led v') s = .next u)
    ∧ (∀ v v' : Ctrl, ∃ t u, exec (.settrig led v) s = .next t ∧ exec (.settrig led v') t = .next u
        ∧ exec (.settrig led v') s = .next u)
    ∧ (∀ (sh sh' : Byte) (ph ph' : BitVec 16), ∃ t u, exec (.setpat led sh ph) s = .next t
        ∧ exec (.setpat led sh' ph') t = .next u ∧ exec (.setpat led sh' ph') s = .next u)

/-- R104 c, R71 d: writes of different control registers commute, on one slot or on two, and each commutes with
a SETPAT. -/
def Obligations.ControlWritesCommute : Prop :=
  ∀ (led led' : Byte) (v v' : Ctrl) (sh : Byte) (ph : BitVec 16) (s : State),
    ∀ p ∈ [(Instr.setrate led v, Instr.setscale led' v'), (.setrate led v, .settrig led' v'),
        (.setscale led v, .settrig led' v'), (.setrate led v, .setpat led' sh ph),
        (.setscale led v, .setpat led' sh ph), (.settrig led v, .setpat led' sh ph)],
      ∃ t t' u, exec p.1 s = .next t ∧ exec p.2 t = .next u ∧ exec p.2 s = .next t' ∧ exec p.1 t' = .next u

/-- R61: the addressed slot is `led mod NUM_LEDS`, a slot of the block for every `led`: the four writing commands
touch that slot only, RDPAT answers from it, and two indices with one remainder are one slot. -/
def Obligations.LedIndexWrapsModuloCount : Prop :=
  ∀ (s : State) (led sh : Byte) (v : Ctrl) (ph : BitVec 16),
    led.toNat % s.numLeds < s.numLeds
    ∧ (∀ c ∈ [Instr.setrate led v, .setscale led v, .settrig led v, .setpat led sh ph],
        ∃ t, exec c s = .next t ∧ s.onlySlot t (led.toNat % s.numLeds))
    ∧ exec (.rdpat led) s = .next (s.respond (patternWord (s.slot (led.toNat % s.numLeds))))
    ∧ ∀ led' : Byte, led.toNat % s.numLeds = led'.toNat % s.numLeds →
        exec (.setrate led v) s = exec (.setrate led' v) s
        ∧ exec (.setscale led v) s = exec (.setscale led' v) s
        ∧ exec (.settrig led v) s = exec (.settrig led' v) s
        ∧ exec (.setpat led sh ph) s = exec (.setpat led' sh ph) s
        ∧ exec (.rdpat led) s = exec (.rdpat led') s

/-! ## Pattern commands -/

/-- R120: SETPAT writes five registers of the addressed slot together, the phase being `phase16 mod 2048`, and
leaves its `rate`, `scale`, `trig`, `prevTrig`, `out`, `upd` and every other slot. -/
def Obligations.SetpatRestartsTheSlot : Prop :=
  (∀ (led sh : Byte) (ph : BitVec 16) (s : State), ∃ t, exec (.setpat led sh ph) s = .next t
      ∧ s.onlySlot t (led.toNat % s.numLeds)
      ∧ t.slot (led.toNat % s.numLeds)
          = { s.slot (led.toNat % s.numLeds) with
              shape := sh
              phase := ph.extractLsb' 0 11
              counter := ph.extractLsb' 0 11
              cycleCount := 0
              changeEnabled := false })
    ∧ ∀ w : Cmd, w.extractLsb' 44 4 = 4#4 →
        decode w = .setpat (w.extractLsb' 32 8) (w.extractLsb' 24 8) (w.extractLsb' 0 16)

/-- R124: RDPAT answers with `shape` in byte 0, 0 in byte 1 and the 11-bit `phase` in bytes 2 and 3, and writes
nothing. -/
def Obligations.RdpatAnswersThePatternWord : Prop :=
  (∀ (led : Byte) (s : State), ∃ v : PatWord,
      exec (.rdpat led) s = .next { s with rsp := some v }
      ∧ v.toNat = (s.slot (led.toNat % s.numLeds)).shape.toNat * 2 ^ 24
          + (s.slot (led.toNat % s.numLeds)).phase.toNat)
    ∧ ∀ w : Cmd, w.extractLsb' 44 4 = 5#4 → decode w = .rdpat (w.extractLsb' 32 8)

/-- R126, R127, R90: LDPAT is SETPAT with `shape = b0` and `phase = (b2 << 8) | b3`, `b1` without effect, and
ENCPAT is RDPAT. (The spec's own decision D20.) -/
def Obligations.PseudoInstructionsActAsTheirCommands : Prop :=
  (∀ (led b0 b1 b2 b3 : Byte) (s : State), ∃ t, exec (.ldpat led b0 b1 b2 b3) s = .next t
      ∧ exec (.setpat led b0 (BitVec.ofNat 16 (b2.toNat * 256 + b3.toNat))) s = .next t
      ∧ decode (encode (.ldpat led b0 b1 b2 b3))
          = .setpat led b0 (BitVec.ofNat 16 (b2.toNat * 256 + b3.toNat)))
    ∧ (∀ (led : Byte) (s : State), ∃ t, exec (.encpat led) s = .next t ∧ exec (.rdpat led) s = .next t
        ∧ decode (encode (.encpat led)) = .rdpat led)

/-- R125: writing back the word RDPAT answered leaves `shape` and `phase`; reading back a written word gives
the word with its ignored bits 0. -/
def Obligations.PatternRoundTrip : Prop :=
  (∀ (led : Byte) (s : State), ∃ t w u, exec (.rdpat led) s = .next t ∧ t.rsp = some w
      ∧ exec (.setpat led (w.extractLsb' 24 8) (w.extractLsb' 0 16)) t = .next u
      ∧ (u.slot (led.toNat % s.numLeds)).shape = (s.slot (led.toNat % s.numLeds)).shape
      ∧ (u.slot (led.toNat % s.numLeds)).phase = (s.slot (led.toNat % s.numLeds)).phase
      ∧ (u.slot (led.toNat % s.numLeds)).counter = (s.slot (led.toNat % s.numLeds)).phase
      ∧ (u.slot (led.toNat % s.numLeds)).cycleCount = 0
      ∧ (u.slot (led.toNat % s.numLeds)).changeEnabled = false)
    ∧ ∀ (led : Byte) (w : PatWord) (s : State), ∃ t u,
        exec (.setpat led (w.extractLsb' 24 8) (w.extractLsb' 0 16)) s = .next t
        ∧ exec (.rdpat led) t = .next u ∧ u.rsp = some (w &&& 0xFF0007FF#32)

/-! ## TICK: frame, passes 1 and 2 -/

/-- R140, R141: TICK completes, and is, slot by slot, the three passes of that slot, the draws being asked in
ascending slot order; the number of slots stays. (The spec's own decision D16.) That the response channel and the
waiting inputs stay, and that the random source ends with the TICK's draws taken, are clauses about the model's
own fields (notes/assumptions/1.md, 3.md, 4.md). -/
def Obligations.TickIsThreePassesOfEverySlot : Prop :=
  ∀ s : State, ∃ t, exec .tick s = .next t ∧ t.numLeds = s.numLeds ∧ t.rsp = s.rsp ∧ t.inputs = s.inputs
    ∧ t.random = s.random.afterDraws (s.drawsBefore s.numLeds)
    ∧ ∀ i, i < s.numLeds →
        t.slot i = (pass3 (pass2 (pass1 (Lane.start (s.slot i))))
          (s.random.afterDraws (s.drawsBefore i))).1

/-- R140, R38: TICK never writes `shape`, `phase`, `rate`, `scale` or `trig` of any slot. -/
def Obligations.TickWritesNoConfiguration : Prop :=
  ∀ s : State, ∃ t, exec .tick s = .next t ∧ ∀ i, i < s.numLeds →
    (t.slot i).shape = (s.slot i).shape ∧ (t.slot i).phase = (s.slot i).phase
    ∧ (t.slot i).rate = (s.slot i).rate ∧ (t.slot i).scale = (s.slot i).scale
    ∧ (t.slot i).trig = (s.slot i).trig

/-- R142, R149: in one-shot mode a TICK copies `trig` into `prevTrig`; `changeEnabled` is set by a rising edge,
stays set while the shot lives, and is clear after the wrap that ends the shot. (The spec's own decision
D22.) -/
def Obligations.OneshotLatchesTheEdge : Prop :=
  ∀ s : State, ∃ t, exec .tick s = .next t ∧ ∀ i, i < s.numLeds → trigMode (s.slot i).shape = .oneshot →
    (t.slot i).prevTrig = (s.slot i).trig
    ∧ ((t.slot i).changeEnabled = true ↔
        ((s.slot i).changeEnabled = true ∨ (s.slot i).rising)
          ∧ ¬((s.slot i).sumWraps ∧ (s.slot i).endsPattern))

/-- R143: in gate mode, GATECHANGE or GATEOUT alike, a TICK sets `changeEnabled` to `trig >= 512` and does not
write `prevTrig`. -/
def Obligations.GateFollowsTheTriggerLevel : Prop :=
  ∀ s : State, ∃ t, exec .tick s = .next t ∧ ∀ i, i < s.numLeds → trigMode (s.slot i).shape ≠ .oneshot →
    ((t.slot i).changeEnabled = true ↔ 512 ≤ (s.slot i).trig.toNat)
    ∧ (t.slot i).prevTrig = (s.slot i).prevTrig

/-- R145: an enabled slot's counter advances by `rate`, and a sum of 2048 or more wraps by one subtraction of
2048, leaving the overshoot; the sum is at most 2302. A slot that is not enabled keeps its counter. -/
def Obligations.CounterAdvancesAndKeepsOvershoot : Prop :=
  ∀ s : State, ∃ t, exec .tick s = .next t ∧ ∀ i, i < s.numLeds →
    (s.slot i).counter.toNat + (s.slot i).rate.toNat ≤ 2302
    ∧ ((s.slot i).enabled → ¬(s.slot i).sumWraps →
        (t.slot i).counter.toNat = (s.slot i).counter.toNat + (s.slot i).rate.toNat)
    ∧ ((s.slot i).enabled → (s.slot i).sumWraps →
        (t.slot i).counter.toNat + 2048 = (s.slot i).counter.toNat + (s.slot i).rate.toNat
          ∧ (t.slot i).counter.toNat < (s.slot i).rate.toNat)
    ∧ (¬(s.slot i).enabled → (t.slot i).counter = (s.slot i).counter)

/-- R147, R148: at a wrap, with no MISS flag or after the last miss cycle, `cycleCount` becomes 0 and a one-shot
ends, a gate-mode slot staying enabled; before the last miss cycle it counts up and stays enabled, in every
state that meets R39 b (a premise here, and kept by every step). Without a wrap `cycleCount` stays. -/
def Obligations.MissCyclesAreCountedAtWraps : Prop :=
  ∀ s : State, ∃ t, exec .tick s = .next t ∧ ∀ i, i < s.numLeds →
    ((s.slot i).wraps → (s.slot i).endsPattern →
        (t.slot i).cycleCount = 0
        ∧ ((t.slot i).changeEnabled = true ↔ trigMode (s.slot i).shape ≠ .oneshot))
    ∧ ((s.slot i).wraps → (s.slot i).missBounded → ¬(s.slot i).endsPattern →
        (t.slot i).cycleCount.toNat = (s.slot i).cycleCount.toNat + 1 ∧ (t.slot i).changeEnabled = true)
    ∧ (¬(s.slot i).wraps → (t.slot i).cycleCount = (s.slot i).cycleCount)

/-- R150: the eight rows of the one-shot state machine. Its idle state has `cycleCount = 0`, which is an
invariant of the model (`State.idleAtRest`). A waveform sample is a ROM row's: a slot that selects RANDOM emits
nothing there (R185 f; `EmissionIsMissedOnlyByRandomWithoutWrap`). (The spec's own decisions D12, D13 and D22.) -/
def Obligations.OneshotStateMachine : Prop :=
  ∀ s : State, ∃ t, exec .tick s = .next t ∧ ∀ i, i < s.numLeds →
    trigMode (s.slot i).shape = .oneshot → (s.slot i).idleAtRest →
      ((s.slot i).changeEnabled = false → ¬(s.slot i).rising →
          (t.slot i).changeEnabled = false ∧ (t.slot i).cycleCount = 0 ∧ (t.slot i).emitsZero)
      ∧ ((s.slot i).changeEnabled = false → (s.slot i).rising → ¬(s.slot i).sumWraps →
          (t.slot i).changeEnabled = true ∧ (t.slot i).cycleCount = 0 ∧ (t.slot i).showsWaveform)
      ∧ ((s.slot i).changeEnabled = false → (s.slot i).rising → (s.slot i).sumWraps →
          missLen (s.slot i).shape = 0 →
          (t.slot i).changeEnabled = false ∧ (t.slot i).cycleCount = 0 ∧ (t.slot i).emitsZero)
      ∧ ((s.slot i).changeEnabled = false → (s.slot i).rising → (s.slot i).sumWraps →
          0 < missLen (s.slot i).shape →
          (t.slot i).changeEnabled = true ∧ (t.slot i).cycleCount = 1 ∧ (t.slot i).emitsZero)
      ∧ ((s.slot i).changeEnabled = true → (s.slot i).cycleCount = 0 → ¬(s.slot i).sumWraps →
          (t.slot i).changeEnabled = true ∧ (t.slot i).cycleCount = 0 ∧ (t.slot i).showsWaveform)
      ∧ ((s.slot i).changeEnabled = true → (s.slot i).cycleCount.toNat < missLen (s.slot i).shape →
          (s.slot i).sumWraps →
          (t.slot i).changeEnabled = true
            ∧ (t.slot i).cycleCount.toNat = (s.slot i).cycleCount.toNat + 1 ∧ (t.slot i).emitsZero)
      ∧ ((s.slot i).changeEnabled = true → (s.slot i).cycleCount ≠ 0 → ¬(s.slot i).sumWraps →
          (t.slot i).changeEnabled = true ∧ (t.slot i).cycleCount = (s.slot i).cycleCount
            ∧ (t.slot i).emitsZero)
      ∧ ((s.slot i).changeEnabled = true → (s.slot i).cycleCount.toNat = missLen (s.slot i).shape →
          (s.slot i).sumWraps →
          (t.slot i).changeEnabled = false ∧ (t.slot i).cycleCount = 0 ∧ (t.slot i).emitsZero)

/-- R151: a closed gate holds `counter` and `cycleCount`; in GATECHANGE mode the standing waveform is emitted
again, or a forced 0 inside a miss cycle; in GATEOUT mode the output is forced to 0. The waveform is a ROM row's: a
slot that selects RANDOM emits nothing while its gate is closed (R185 h). (The spec's own decision D12.) -/
def Obligations.ClosedGateFreezesOrBlanks : Prop :=
  ∀ s : State, ∃ t, exec .tick s = .next t ∧ ∀ i, i < s.numLeds → (s.slot i).trig.toNat < 512 →
    (trigMode (s.slot i).shape = .gatechange →
        (t.slot i).counter = (s.slot i).counter ∧ (t.slot i).cycleCount = (s.slot i).cycleCount
        ∧ ((s.slot i).cycleCount = 0 → (t.slot i).showsWaveform)
        ∧ ((s.slot i).cycleCount ≠ 0 → (t.slot i).emitsZero))
    ∧ (trigMode (s.slot i).shape = .gateout →
        (t.slot i).counter = (s.slot i).counter ∧ (t.slot i).cycleCount = (s.slot i).cycleCount
        ∧ (t.slot i).emitsZero)

/-! ## TICK: pass 3 -/

/-- R171: where an override case holds on what passes 1 and 2 left (and pass 3 leaves as it is), the level
emitted is exactly 0 whatever `scale` and INVERT are, and no draw is taken. (The spec's own decision D12.) -/
def Obligations.ForcedZeroBypassesScalerAndDraw : Prop :=
  ∀ s : State, ∃ t, exec .tick s = .next t ∧ ∀ i, i < s.numLeds → (t.slot i).isForced →
    (t.slot i).emitsZero ∧ s.noDrawAt i

/-- R170, R172: a slot that is not forced and selects a ROM row emits the level of that row's sample at the
counter of this TICK, and takes no draw. -/
def Obligations.UnforcedSlotEmitsItsRomSample : Prop :=
  ∀ s : State, ∃ t, exec .tick s = .next t ∧ ∀ i, i < s.numLeds → ¬(t.slot i).isForced →
    ¬(s.slot i).selectsRandom →
      s.noDrawAt i ∧ (t.slot i).upd = true
      ∧ ∃ row, muxSelect ((s.slot i).shape.extractLsb' 0 3) = .row row
          ∧ (t.slot i).out = levelOf (s.slot i).shape (s.slot i).scale (rom row (t.slot i).counter)

/-- R178: a RANDOM slot that is not forced takes one draw and emits its level if it wrapped in this TICK, and
otherwise emits nothing and takes none; nothing else ever draws, and no slot draws twice. (The spec's own
decision D11.) -/
def Obligations.RandomSlotDrawsOnlyAtItsOwnWrap : Prop :=
  ∀ s : State, ∃ t, exec .tick s = .next t ∧ ∀ i, i < s.numLeds →
    (¬(t.slot i).isForced → (s.slot i).selectsRandom → (s.slot i).wraps →
        s.drawsAt i ∧ (t.slot i).upd = true
        ∧ (t.slot i).out = levelOf (s.slot i).shape (s.slot i).scale (s.drawOf i))
    ∧ (¬(t.slot i).isForced → (s.slot i).selectsRandom → ¬(s.slot i).wraps →
        s.noDrawAt i ∧ (t.slot i).upd = false ∧ (t.slot i).out = (s.slot i).out)
    ∧ (s.drawsAt i ∨ s.noDrawAt i)
    ∧ (s.drawsAt i → ¬(t.slot i).isForced ∧ (s.slot i).selectsRandom ∧ (s.slot i).wraps)

/-- R183: every slot emits in every TICK, except a RANDOM slot that is not forced and did not wrap; where
nothing is emitted `out` holds. (The spec's own decision D10.) -/
def Obligations.EmissionIsMissedOnlyByRandomWithoutWrap : Prop :=
  ∀ s : State, ∃ t, exec .tick s = .next t ∧ ∀ i, i < s.numLeds →
    ((t.slot i).upd = false ↔
        ¬(t.slot i).isForced ∧ (s.slot i).selectsRandom ∧ ¬(s.slot i).wraps)
    ∧ ((t.slot i).upd = false → (t.slot i).out = (s.slot i).out)

/-- R182, R184: among the emissions of a TICK the true zeros are exactly the forced ones, and a slot without
INVERT never emits 255. (The spec's own decisions D12 and D21.) -/
def Obligations.OnlyForcedSlotsGoDark : Prop :=
  ∀ s : State, ∃ t, exec .tick s = .next t ∧ ∀ i, i < s.numLeds → (t.slot i).upd = true →
    ((t.slot i).out = 0 ↔ (t.slot i).isForced)
    ∧ ((s.slot i).shape.getLsbD 3 = false → (t.slot i).out.toNat ≤ 254)

/-- R173 to R177: the rows of the ROM, each by its formula at every position; TRIANGLE is exactly symmetric, and
the clamp of SPIKE never acts. Of R173 this states the rows OFF and ON. -/
def Obligations.RomRowsFollowTheirFormulas : Prop :=
  ∀ c : Phase,
    rom .off c = 0 ∧ rom .on c = 255
    ∧ rom .saw c = c.extractLsb' 3 8
    ∧ (c.toNat < 1024 → (rom .triangle c).toNat = c.toNat / 4)
    ∧ (1024 ≤ c.toNat → (rom .triangle c).toNat = (2047 - c.toNat) / 4)
    ∧ rom .triangle c = rom .triangle (BitVec.ofNat 11 (2047 - c.toNat))
    ∧ (c.toNat < 1024 → rom .square c = 255) ∧ (1024 ≤ c.toNat → rom .square c = 0)
    ∧ (c.toNat < 410 → rom .pulse c = 255) ∧ (410 ≤ c.toNat → rom .pulse c = 0)
    ∧ (c.toNat < 1024 → (rom .spike c).toNat = (c.toNat / 64) * (c.toNat / 64))
    ∧ (1024 ≤ c.toNat → (rom .spike c).toNat = (31 - c.toNat / 64) * (31 - c.toNat / 64))
    ∧ (rom .spike c).toNat ≤ 225

/-- R24, R172, R179: the eight selector codes choose the seven rows and the random source, and no code is
unassigned. (The spec's own decision D6.) -/
def Obligations.SelectorChoosesOneOfEight : Prop :=
  muxSelect 0 = .row .off ∧ muxSelect 1 = .row .saw ∧ muxSelect 2 = .row .triangle
    ∧ muxSelect 3 = .row .square ∧ muxSelect 4 = .row .pulse ∧ muxSelect 5 = .row .spike
    ∧ muxSelect 6 = .random ∧ muxSelect 7 = .row .on ∧ ∀ sel : Sel, muxSelect sel ≠ .unassigned

/-- R180, R181, R182, R184: the scaler truncates `base * scale / 256`, which is at most 254 and at most either
factor; without INVERT the level is that or the floor of 1, with INVERT it is 255 minus it and never 0. (The
spec's own decision D21.) -/
def Obligations.LevelIsScaledInvertedFloored : Prop :=
  ∀ shape scale base : Byte,
    (scaled base scale).toNat = base.toNat * scale.toNat / 256
    ∧ (scaled base scale).toNat ≤ 254 ∧ (scaled base scale).toNat ≤ base.toNat
    ∧ (scaled base scale).toNat ≤ scale.toNat
    ∧ ((scaled base scale).toNat = 254 ↔ base = 255 ∧ scale = 255)
    ∧ (shape.getLsbD 3 = false →
        (levelOf shape scale base).toNat = max 1 (base.toNat * scale.toNat / 256))
    ∧ (shape.getLsbD 3 = true →
        (levelOf shape scale base).toNat = 255 - base.toNat * scale.toNat / 256
        ∧ 1 ≤ (levelOf shape scale base).toNat)

/-- R185 f, g: a one-shot RANDOM slot never draws, and a RANDOM slot with a MISS flag draws only at the wrap
that ends its last miss cycle. The premise is the invariant R39 b. (The spec's own decision D11.) -/
def Obligations.RandomWithOneshotOrMissDraws : Prop :=
  ∀ (s : State) (i : Nat), i < s.numLeds → (s.slot i).missBounded →
    (trigMode (s.slot i).shape = .oneshot → s.noDrawAt i)
    ∧ (0 < missLen (s.slot i).shape → s.drawsAt i →
        (s.slot i).cycleCount.toNat = missLen (s.slot i).shape)

/-! ## TICK as lanes, and over many ticks -/

/-- R153: what a slot becomes in a TICK depends on that slot alone, but for the byte it draws: two states that
agree on one slot, whatever else they hold, agree on it after a TICK where it draws nothing, or the same. (The
spec's own decisions D11 and D16.) -/
def Obligations.SlotsAreIndependentLanes : Prop :=
  ∀ (s s' : State) (i : Nat), i < s.numLeds → i < s'.numLeds → s.slot i = s'.slot i →
    ∃ t t', exec .tick s = .next t ∧ exec .tick s' = .next t'
      ∧ (s.drawsAt i ↔ s'.drawsAt i)
      ∧ { t.slot i with out := 0 } = { t'.slot i with out := 0 }
      ∧ (s.noDrawAt i → t.slot i = t'.slot i)
      ∧ (s.drawOf i = s'.drawOf i → t.slot i = t'.slot i)

/-- R241, from R145 and R146: over any number of TICKs an open gate advances the counter by `rate` each time,
modulo 2048, the overshoot being kept at every wrap. -/
def Obligations.OpenGateRunsAtItsRate : Prop :=
  ∀ (n : Nat) (s : State), ∃ t, ticks n s = .next t ∧ ∀ i, i < s.numLeds →
    trigMode (s.slot i).shape ≠ .oneshot → 512 ≤ (s.slot i).trig.toNat →
      (t.slot i).counter.toNat = ((s.slot i).counter.toNat + n * (s.slot i).rate.toNat) % 2048

/-- R150: an idle one-shot that sees no new rising edge stays idle, dark and where it is, however many TICKs
pass, even with its trigger held high. That it is dark whatever INVERT is rests on R171. (The spec's own decision
D12.) -/
def Obligations.IdleOneshotWaitsForAnEdge : Prop :=
  ∀ (n : Nat) (s : State), ∃ t, ticks n s = .next t ∧ ∀ i, i < s.numLeds →
    trigMode (s.slot i).shape = .oneshot → (s.slot i).changeEnabled = false → ¬(s.slot i).rising →
      (t.slot i).changeEnabled = false ∧ (t.slot i).counter = (s.slot i).counter
      ∧ (0 < n → (t.slot i).emitsZero)

/-- R150, with no MISS flag: a live shot, or one whose rising edge the next TICK sees, shows its waveform while
the counter has not come to the end of the cycle, is dark from the TICK that brings it there on, and stays dark
and idle however many TICKs pass, even with its trigger held high; its counter then holds the overshoot, below
`rate`. The waveform is a ROM row's: a slot that selects RANDOM emits nothing there (R185 f). (The spec's own
decisions D12 and D22.) -/
def Obligations.ShotRunsOneCycleThenStaysDark : Prop :=
  ∀ (n : Nat) (s : State), 0 < n → ∃ t, ticks n s = .next t ∧ ∀ i, i < s.numLeds →
    trigMode (s.slot i).shape = .oneshot → missLen (s.slot i).shape = 0 → (s.slot i).cycleCount = 0 →
    (s.slot i).changeEnabled = true ∨ (s.slot i).rising →
      ((s.slot i).counter.toNat + n * (s.slot i).rate.toNat < 2048 →
          (t.slot i).changeEnabled = true ∧ (t.slot i).showsWaveform
          ∧ (t.slot i).counter.toNat = (s.slot i).counter.toNat + n * (s.slot i).rate.toNat)
      ∧ (2048 ≤ (s.slot i).counter.toNat + n * (s.slot i).rate.toNat →
          (t.slot i).changeEnabled = false ∧ (t.slot i).emitsZero
          ∧ (t.slot i).counter.toNat < (s.slot i).rate.toNat)

/-- R238: a slot given a one-shot pattern while its trigger is high fires at its first TICK if `prevTrig` is
stale and low, and does not if `prevTrig` is high; the first case is stated where that TICK does not also wrap.
That the idle slot emits 0 whatever INVERT is rests on R171. (The spec's own decisions D12 and D14.) -/
def Obligations.StalePrevTrigDecidesTheFirstShot : Prop :=
  ∀ (led sh : Byte) (ph : BitVec 16) (s : State), sh.getLsbD 7 = true → 512 ≤ (s.addressed led).trig.toNat →
    ∃ t u, exec (.setpat led sh ph) s = .next t ∧ exec .tick t = .next u
      ∧ ((s.addressed led).prevTrig.toNat < 512 →
          ph.toNat % 2048 + (s.addressed led).rate.toNat < 2048 →
          (u.slot (s.idx led)).changeEnabled = true
          ∧ (u.slot (s.idx led)).counter.toNat = ph.toNat % 2048 + (s.addressed led).rate.toNat)
      ∧ (512 ≤ (s.addressed led).prevTrig.toNat →
          (u.slot (s.idx led)).changeEnabled = false ∧ (u.slot (s.idx led)).emitsZero)

/-! ## Whole machine -/

/-- R38: which command writes which register, over every instruction: what is not listed for it stays, in every
slot. -/
def Obligations.OnlyListedCommandsWriteARegister : Prop :=
  ∀ (c : Instr) (s : State), ∃ t, exec c s = .next t ∧ t.numLeds = s.numLeds ∧ ∀ i, i < s.numLeds →
    ((∀ led v, c ≠ .setrate led v) → (t.slot i).rate = (s.slot i).rate)
    ∧ ((∀ led v, c ≠ .setscale led v) → (t.slot i).scale = (s.slot i).scale)
    ∧ ((∀ led v, c ≠ .settrig led v) → (t.slot i).trig = (s.slot i).trig)
    ∧ ((∀ led sh ph, c ≠ .setpat led sh ph) → (∀ led b0 b1 b2 b3, c ≠ .ldpat led b0 b1 b2 b3) →
        (t.slot i).shape = (s.slot i).shape ∧ (t.slot i).phase = (s.slot i).phase)
    ∧ ((∀ led sh ph, c ≠ .setpat led sh ph) → (∀ led b0 b1 b2 b3, c ≠ .ldpat led b0 b1 b2 b3) → c ≠ .tick →
        (t.slot i).counter = (s.slot i).counter ∧ (t.slot i).cycleCount = (s.slot i).cycleCount
        ∧ (t.slot i).changeEnabled = (s.slot i).changeEnabled)
    ∧ (c ≠ .tick → (t.slot i).prevTrig = (s.slot i).prevTrig ∧ (t.slot i).out = (s.slot i).out
        ∧ (t.slot i).upd = (s.slot i).upd)

/-- R83: no instruction but RDPAT, under either of its names, answers. (The spec's own decision D23.) That `exec`
then leaves the response channel holding what it held, that it leaves the waiting inputs, and that only TICK
touches the random source, are clauses about the model's own fields (notes/assumptions/1.md, 3.md, 4.md). -/
def Obligations.OnlyRdpatAnswers : Prop :=
  ∀ (c : Instr) (s : State), ∃ t, exec c s = .next t ∧ t.inputs = s.inputs
    ∧ ((∀ led, c ≠ .rdpat led) → (∀ led, c ≠ .encpat led) → t.rsp = s.rsp)
    ∧ (c ≠ .tick → t.random = s.random)

/-- R200: every command word, in every state, executes to completion; no step faults, is refused or is stuck. -/
def Obligations.EveryCommandCompletes : Prop :=
  (∀ (w : Cmd) (s : State), ∃ t, exec (decode w) s = .next t)
    ∧ (∀ (c : Instr) (s : State), ∃ t, exec c s = .next t)
    ∧ ∀ s : State, ∃ t, step s = .next t

/-- R70, R91: the step takes the word the host offers, decodes it and executes it, on the state in which the
word has left the port and the response channel is idle again; with nothing offered no register changes. (The
spec's own decision D1.) The list of waiting inputs and the response that one step holds are the model's own
(notes/assumptions/1.md, 3.md). -/
def Obligations.StepRunsTheOfferedCommand : Prop :=
  (∀ (s : State) (w : Cmd) (rest : List Input), s.inputs = .cmd w :: rest →
      step s = exec (decode w) { s with inputs := rest, rsp := none })
    ∧ (∀ (s : State) (w : Cmd),
        step (s.withFetchWord 48 w.toNat) = exec (decode w) { s with rsp := none })
    ∧ ∀ s : State, s.inputs = [] → step s = .next { s with rsp := none }

/-- R230: asserting `rst` puts every register of every slot at its reset value, keeps the number of slots and
answers nothing. That the inputs waiting and the random source stay is the model's choice
(notes/assumptions/20.md). (The spec's own decisions D9 and D19.) -/
def Obligations.RstClearsEverySlot : Prop :=
  ∀ (s : State) (rest : List Input), s.inputs = .rst :: rest → ∃ t, step s = .next t
    ∧ t.numLeds = s.numLeds ∧ t.rsp = none ∧ t.inputs = rest ∧ t.random = s.random
    ∧ ∀ i, i < s.numLeds → t.slot i = Slot.reset

/-- R43, R7: a block built with parameters in their range has `min(NUM_LEDS_REQ, MAX_LEDS)` slots, 1 to 256,
every register of every slot 0; with a request of 0 there is none. (The spec's own decisions D7 and D9.) -/
def Obligations.ConstructedBlockIsAllZero : Prop :=
  (∀ p : Config.Params, 1 ≤ p.maxLeds → p.maxLeds ≤ 256 → 1 ≤ p.numLedsReq →
      ∃ s, State.construct p = some s ∧ s.numLeds = min p.numLedsReq p.maxLeds
        ∧ 1 ≤ s.numLeds ∧ s.numLeds ≤ 256
        ∧ ∀ i, i < s.numLeds → s.slot i = ⟨0, 0, 0, 0, 0, 0, 0, 0, false, 0, false⟩)
    ∧ ∀ p : Config.Params, p.numLedsReq = 0 → State.construct p = none

/-- R232: after the first TICK of a block just reset, every slot is as reset but for `out = 1` and `upd = 1`,
and no draw was taken. (The spec's own decisions D9 and D21.) -/
def Obligations.FirstTickGlowsAtOne : Prop :=
  ∀ (p : Config.Params) (s : State), State.construct p = some s →
    ∃ t, exec .tick s = .next t ∧ t.numLeds = s.numLeds ∧ t.random = s.random
      ∧ ∀ i, i < s.numLeds → t.slot i = ⟨0, 0, 0, 0, 0, 0, 0, 0, false, 1, true⟩

/-- R39 b, R150: the invariant holds of every block just built and reset, and of `State.reset`. (The spec's own
decisions D9 and D13.) `State.reset` is the block of the model's own default parameters
(notes/assumptions/5.md). -/
def Obligations.ResetMeetsTheInvariant : Prop :=
  State.reset.Inv ∧ ∀ (p : Config.Params) (s : State), State.construct p = some s → s.Inv

/-- R39, R150: from every state that meets it, every step keeps the invariant: at most 256 slots, every slot
with `cycleCount <= missLen(shape)`, every idle one-shot slot with `cycleCount = 0`. (The spec's own decision
D13.) -/
def Obligations.StepKeepsTheInvariant : Prop :=
  ∀ s t : State, s.Inv → step s = .next t → t.Inv ∧ t.numLeds = s.numLeds

/-- R178, R215, R244: every byte a slot draws is at most 254, whatever is queued; so a RANDOM slot emits at most
253, or with INVERT at least 2. (The spec's own decision D11.) The queue is the model's own
(notes/assumptions/4.md). -/
def Obligations.DrawsKeepTheContract : Prop :=
  ∀ s : State, (∀ i, (s.drawOf i).toNat ≤ 254)
    ∧ ∃ t, exec .tick s = .next t ∧ ∀ i, i < s.numLeds → s.drawsAt i →
        ((s.slot i).shape.getLsbD 3 = false → 1 ≤ (t.slot i).out.toNat ∧ (t.slot i).out.toNat ≤ 253)
        ∧ ((s.slot i).shape.getLsbD 3 = true → 2 ≤ (t.slot i).out.toNat)

/-- R215: answers are consumed in request order: the `k`-th draw from now is the `k`-th queued answer, and a
TICK in which `m` draws are asked takes the first `m` answers away. (The spec's own decision D11.) The queue and
the request counter are the model's own (notes/assumptions/4.md). -/
def Obligations.QueuedAnswersAreTakenInOrder : Prop :=
  (∀ (r : RandomPort) (k : Nat) (d : Config.Draw), r.answers[k]? = some d →
      (r.afterDraws k).draw.1.toNat = d.val)
    ∧ ∀ s : State, ∃ t, exec .tick s = .next t
        ∧ t.random.answers = s.random.answers.drop (s.drawsBefore s.numLeds)
        ∧ t.random.requests = s.random.requests + s.drawsBefore s.numLeds

/-- R214: the sink is called for exactly the slots whose `upd` is 1, with their `out`, in ascending index. (The
spec's own decisions D10 and D16.) -/
def Obligations.EmissionsAreTheUpdatedSlotsInOrder : Prop :=
  ∀ s : State,
    (∀ (i : Nat) (v : Byte), (i, v) ∈ s.emissions ↔
        i < s.numLeds ∧ (s.slot i).upd = true ∧ (s.slot i).out = v)
    ∧ (s.emissions.map Prod.fst).Pairwise (· < ·)

/-! ## Encoding -/

/-- R91, R90: decoding an encoded instruction gives it back, a pseudo-instruction giving its expansion; so
decoding, encoding and decoding a word again is decoding it. (The spec's own decisions D1, D2 and D20.) -/
def Obligations.DecodeOfEncodeIsTheInstruction : Prop :=
  (∀ c : Instr, c.wellFormed = true → decode (encode c) = c)
    ∧ (∀ c : Instr, decode (encode c) = expandPseudo c)
    ∧ ∀ w : Cmd, decode (encode (decode w)) = decode w

/-- R87, R91: the decoder yields well-formed instructions only, and every one of them. (The spec's own decision
D2.) -/
def Obligations.DecoderYieldsExactlyTheWellFormed : Prop :=
  ∀ c : Instr, c.wellFormed = true ↔ ∃ w : Cmd, decode w = c

/-- R91, R84: the canonical word has every ignored bit 0 and the same meaning; decoding a word and encoding it
canonically gives its canonical word, so a canonical word is given back, and a canonical command is given back by
decoding its canonical word. (The spec's own decision D3.) -/
def Obligations.CanonicalWordKeepsTheMeaning : Prop :=
  (∀ w : Cmd, encodeCanonical (decode w) = canonicalWord w
      ∧ cmdOp (canonicalWord w) = cmdOp w
      ∧ canonicalWord w &&& ~~~usedBits (cmdOp w) = 0
      ∧ canonicalWord (canonicalWord w) = canonicalWord w
      ∧ (canonicalWord w = w → encode (decode w) = w)
      ∧ ∀ s : State, exec (decode (canonicalWord w)) s = exec (decode w) s)
    ∧ (∀ c : Instr, c.canonical = true →
        encodeCanonical c = encode c ∧ decode (encodeCanonical c) = c)
    ∧ ∀ w : Cmd, canonicalWord w = w → (decode w).canonical = true

/-- R92: every 48-bit word matches exactly one non-pseudo row of the opcode table, the row of the instruction it
decodes to; and the row of an instruction, a pseudo row for a pseudo-instruction, matches the instruction's word.
(The spec's own decision D2.) -/
def Obligations.EveryWordMatchesOneTableRow : Prop :=
  (∀ w : Cmd, (opcodeTable.filter (fun r => !r.pseudo && r.covers w)).map OpcodeRow.mnemonic
      = [mnemonicOf (decode w)])
    ∧ ∀ c : Instr, ∃ r ∈ opcodeTable, r.mnemonic = mnemonicOf c ∧ r.covers (encode c) = true
        ∧ (r.pseudo = true ↔ c.wellFormed = false)

/-- R92: the table has 18 rows whose columns agree: the mask is the `op` field, the pattern's fixed digits are the
mask and the match, its letters are the fields, and the bits it does not ignore are those the opcode uses. Rows 17
and 18 are the pseudo-commands, with the match, mask, pattern and fields of the command they expand to. (The
spec's own decision D2.) -/
def Obligations.TableColumnsAgree : Prop :=
  opcodeTable.length = 18
    ∧ (∀ r ∈ opcodeTable, r.mask = 0xF00000000000 ∧ r.fieldBits "op" = r.mask
      ∧ r.encoding.toList.length = 48
      ∧ r.bitsWhere (fun c => c = '0' || c = '1') = r.mask
      ∧ r.bitsWhere (fun c => c = '1') = r.matchBits
      ∧ r.bitsWhere (fun c => c = 'l') = r.fieldBits "led"
      ∧ r.bitsWhere (fun c => c = 'v') = r.fieldBits "value"
      ∧ r.bitsWhere (fun c => c = 's') = r.fieldBits "shape"
      ∧ r.bitsWhere (fun c => c = 'p') = r.fieldBits "phase"
      ∧ r.bitsWhere (fun c => c != '-') = usedBits (cmdOp r.matchBits))
    ∧ opcodeTable.map OpcodeRow.pseudo = List.replicate 16 false ++ [true, true]
    ∧ rowLdpat = { rowSetpat with
        mnemonic := "LDPAT", rule := "R126", pseudo := true, expandsTo := rowLdpat.expandsTo }
    ∧ rowEncpat = { rowRdpat with
        mnemonic := "ENCPAT", rule := "R127", pseudo := true, expandsTo := rowEncpat.expandsTo }

/-- R84: the bits its opcode does not use have no effect: two words that agree on the others execute alike in
every state. (The spec's own decision D3.) -/
def Obligations.IgnoredBitsHaveNoEffect : Prop :=
  ∀ (w w' : Cmd) (s : State), w &&& usedBits (cmdOp w) = w' &&& usedBits (cmdOp w) →
    exec (decode w) s = exec (decode w') s

/-- R89, R90: the encodings, as numbers. (The spec's own decisions D2 and D20.) -/
def Obligations.EncodingsAreTheSpecsNumbers : Prop :=
  encode .nop = 0x000000000000 ∧ encode .tick = 0x600000000000
    ∧ ∀ (led sh b1 b2 b3 : Byte) (v : Ctrl) (ph : BitVec 16),
      (encode (.setrate led v)).toNat = 0x100000000000 + led.toNat * 2 ^ 32 + v.toNat
      ∧ (encode (.setscale led v)).toNat = 0x200000000000 + led.toNat * 2 ^ 32 + v.toNat
      ∧ (encode (.settrig led v)).toNat = 0x300000000000 + led.toNat * 2 ^ 32 + v.toNat
      ∧ (encode (.setpat led sh ph)).toNat
          = 0x400000000000 + led.toNat * 2 ^ 32 + sh.toNat * 2 ^ 24 + ph.toNat
      ∧ (encode (.rdpat led)).toNat = 0x500000000000 + led.toNat * 2 ^ 32
      ∧ (encode (.ldpat led sh b1 b2 b3)).toNat
          = 0x400000000000 + led.toNat * 2 ^ 32 + sh.toNat * 2 ^ 24 + b1.toNat * 2 ^ 16 + b2.toNat * 2 ^ 8
            + b3.toNat
      ∧ (encode (.encpat led)).toNat = 0x500000000000 + led.toNat * 2 ^ 32

/-- Words written out from the spec's encodings decode to the commands they stand for (the examples of R101 to
R103, R120, R124 and spec/95_test_vectors.md V1, V2). (The spec's own decisions D1, D2, D5, D6 and D15.) -/
def Obligations.WrittenOutWordsDecode : Prop :=
  decode 0x100200000200 = .setrate 2 512 ∧ decode 0x2000000003FF = .setscale 0 1023
    ∧ decode 0x3F0100000600 = .settrig 1 512 ∧ decode 0x400081000000 = .setpat 0 0x81 0
    ∧ decode 0x500300000000 = .rdpat 3 ∧ decode 0x600000000000 = .tick
    ∧ decode 0x7000FFFFFFFF = .reserved7 ∧ decode 0xF00000000000 = .reservedF ∧ decode 0 = .nop

/-- R89, R90: for every line of the notation, its operands given as numbers or as a list of shape names: with every
operand in its range it assembles to its command, with one out of range it is an error; a shape expression is an
error where it holds more than one kind, else its value is the sum of its names' values, which must be a byte;
`TICK *n` stands for `n` TICKs. (The spec's own decisions D5, D6 and D20.) That a name written twice counts twice,
and which error a line gives, are the model's reading (notes/assumptions/18.md). -/
def Obligations.AssemblerChecksOperandRanges : Prop :=
  ([ShapeName.off, .saw, .triangle, .square, .pulse, .spike, .random, .on, .invert, .miss1, .miss2, .gateout,
      .oneshot, .gatechange].map ShapeName.value = [0, 1, 2, 3, 4, 5, 6, 7, 8, 16, 32, 64, 128, 0])
  ∧ (∀ k : ShapeName, k.isKind = true ↔
      k ∈ [ShapeName.off, .saw, .triangle, .square, .pulse, .spike, .random, .on])
  ∧ ∀ (led value phase b0 b1 b2 b3 n : Nat) (names : List ShapeName),
    assemble .nop = .ok [.nop]
    ∧ assemble (.tick n) = .ok (List.replicate n .tick)
    ∧ (led < 256 → value < 1024 →
        assemble (.setrate led value) = .ok [.setrate (BitVec.ofNat 8 led) (BitVec.ofNat 10 value)]
        ∧ assemble (.setscale led value) = .ok [.setscale (BitVec.ofNat 8 led) (BitVec.ofNat 10 value)]
        ∧ assemble (.settrig led value) = .ok [.settrig (BitVec.ofNat 8 led) (BitVec.ofNat 10 value)])
    ∧ (256 ≤ led ∨ 1024 ≤ value →
        assemble (.setrate led value) = .error .outOfRange
        ∧ assemble (.setscale led value) = .error .outOfRange
        ∧ assemble (.settrig led value) = .error .outOfRange)
    ∧ (led < 256 →
        assemble (.rdpat led) = .ok [.rdpat (BitVec.ofNat 8 led)]
        ∧ assemble (.encpat led) = .ok [.encpat (BitVec.ofNat 8 led)])
    ∧ (256 ≤ led →
        assemble (.rdpat led) = .error .outOfRange ∧ assemble (.encpat led) = .error .outOfRange)
    ∧ (led < 256 → b0 < 256 → b1 < 256 → b2 < 256 → b3 < 256 →
        assemble (.ldpat led b0 b1 b2 b3)
          = .ok [.ldpat (BitVec.ofNat 8 led) (BitVec.ofNat 8 b0) (BitVec.ofNat 8 b1) (BitVec.ofNat 8 b2)
              (BitVec.ofNat 8 b3)])
    ∧ (256 ≤ led ∨ 256 ≤ b0 ∨ 256 ≤ b1 ∨ 256 ≤ b2 ∨ 256 ≤ b3 →
        assemble (.ldpat led b0 b1 b2 b3) = .error .outOfRange)
    ∧ (led < 256 → value < 256 → phase < 65536 →
        assemble (.setpat led (.number value) phase)
          = .ok [.setpat (BitVec.ofNat 8 led) (BitVec.ofNat 8 value) (BitVec.ofNat 16 phase)])
    ∧ (256 ≤ led ∨ 256 ≤ value ∨ 65536 ≤ phase →
        assemble (.setpat led (.number value) phase) = .error .outOfRange)
    ∧ ((names.filter ShapeName.isKind).length ≤ 1 → led < 256 → (names.map ShapeName.value).sum < 256 →
        phase < 65536 →
        assemble (.setpat led (.names names) phase)
          = .ok [.setpat (BitVec.ofNat 8 led) (BitVec.ofNat 8 (names.map ShapeName.value).sum)
              (BitVec.ofNat 16 phase)])
    ∧ ((names.filter ShapeName.isKind).length ≤ 1 →
        256 ≤ led ∨ 256 ≤ (names.map ShapeName.value).sum ∨ 65536 ≤ phase →
        assemble (.setpat led (.names names) phase) = .error .outOfRange)
    ∧ (1 < (names.filter ShapeName.isKind).length →
        assemble (.setpat led (.names names) phase) = .error .twoKinds)

/-! ## The fields of the shape register -/

/-- R26, R27: `missLen` is 2 for MISS2 plus 1 for MISS1, so 3 with both; the mode is ONESHOT where bit 7 is set,
whatever bit 6 is, else GATEOUT where bit 6 is set, else GATECHANGE. (The bit positions are the spec's own
decision D5.) -/
def Obligations.ShapeBitsGiveMissLenAndMode : Prop :=
  ∀ shape : Byte,
    missLen shape = 2 * (shape.getLsbD 5).toNat + (shape.getLsbD 4).toNat
    ∧ (shape.getLsbD 5 = true → shape.getLsbD 4 = true → missLen shape = 3)
    ∧ (missLen shape = 0 ↔ shape.getLsbD 5 = false ∧ shape.getLsbD 4 = false)
    ∧ (trigMode shape = .oneshot ↔ shape.getLsbD 7 = true)
    ∧ (trigMode shape = .gateout ↔ shape.getLsbD 7 = false ∧ shape.getLsbD 6 = true)
    ∧ (trigMode shape = .gatechange ↔ shape.getLsbD 7 = false ∧ shape.getLsbD 6 = false)

/-- R26: with ONESHOT set a TICK does the same to a slot whether GATEOUT is set or not, the stored byte keeping
both bits; where the slot draws, it is given the same byte in both. (The bit positions are the spec's own
decision D5.) -/
def Obligations.OneshotIgnoresGateout : Prop :=
  ∀ (s s' : State) (i : Nat), i < s.numLeds → i < s'.numLeds → (s.slot i).shape.getLsbD 7 = true →
    s'.slot i = { s.slot i with shape := (s.slot i).shape ^^^ 0x40#8 } → s.drawOf i = s'.drawOf i →
    ∃ t t', exec .tick s = .next t ∧ exec .tick s' = .next t'
      ∧ (s.drawsAt i ↔ s'.drawsAt i)
      ∧ t'.slot i = { t.slot i with shape := (s.slot i).shape ^^^ 0x40#8 }
end

