-- ==== Sys2Proof/Laws/Decode.lean ====
section
/-! SUPPORT. The fields of a command word read back what the encoder put there, and the decoder by opcode. -/

namespace Sys2Proof

section Fields

variable (op : Opcode) (led : Byte) (data : PatWord)

@[simp] theorem cmdOp_cmdWord : cmdOp (cmdWord op led data) = op := by
  apply BitVec.eq_of_getLsbD_eq
  intro i hi
  simp only [cmdOp, cmdWord, BitVec.getLsbD_extractLsb', BitVec.getLsbD_append, hi, decide_true,
    Bool.true_and]
  simp [show ¬ (44 + i < 32) by omega, show ¬ (44 + i - 32 < 8) by omega,
    show ¬ (44 + i - 32 - 8 < 4) by omega, show 44 + i - 32 - 8 - 4 = i by omega]

@[simp] theorem cmdLed_cmdWord : cmdLed (cmdWord op led data) = led := by
  apply BitVec.eq_of_getLsbD_eq
  intro i hi
  simp only [cmdLed, cmdWord, BitVec.getLsbD_extractLsb', BitVec.getLsbD_append, hi, decide_true,
    Bool.true_and]
  simp [show ¬ (32 + i < 32) by omega, hi]

@[simp] theorem cmdData_cmdWord : cmdData (cmdWord op led data) = data := by
  apply BitVec.eq_of_getLsbD_eq
  intro i hi
  simp only [cmdData, cmdWord, BitVec.getLsbD_extractLsb', BitVec.getLsbD_append, hi, decide_true,
    Bool.true_and]
  simp
  omega

end Fields

@[simp] theorem dataValue_ctrlData (v : Ctrl) : dataValue (ctrlData v) = v := by
  apply BitVec.eq_of_getLsbD_eq
  intro i hi
  simp [dataValue, ctrlData, hi]
  omega

@[simp] theorem dataShape_patData (sh : Byte) (ph : BitVec 16) : dataShape (patData sh ph) = sh := by
  apply BitVec.eq_of_getLsbD_eq
  intro i hi
  simp only [dataShape, patData, BitVec.getLsbD_extractLsb', BitVec.getLsbD_append, hi, decide_true,
    Bool.true_and]
  simp [show ¬ (24 + i < 16) by omega, show ¬ (24 + i - 16 < 8) by omega,
    show 24 + i - 16 - 8 = i by omega]

@[simp] theorem dataPhase16_patData (sh : Byte) (ph : BitVec 16) : dataPhase16 (patData sh ph) = ph := by
  apply BitVec.eq_of_getLsbD_eq
  intro i hi
  simp only [dataPhase16, patData, BitVec.getLsbD_extractLsb', BitVec.getLsbD_append, hi, decide_true,
    Bool.true_and]
  simp
  omega

@[simp] theorem dataShape_bytesWord (b0 b1 b2 b3 : Byte) : dataShape (bytesWord b0 b1 b2 b3) = b0 := by
  apply BitVec.eq_of_getLsbD_eq
  intro i hi
  simp only [dataShape, bytesWord, BitVec.getLsbD_extractLsb', BitVec.getLsbD_append, hi, decide_true,
    Bool.true_and]
  simp [show ¬ (24 + i < 8) by omega, show ¬ (24 + i - 8 < 8) by omega,
    show ¬ (24 + i - 8 - 8 < 8) by omega, show 24 + i - 8 - 8 - 8 = i by omega]

@[simp] theorem dataPhase16_bytesWord (b0 b1 b2 b3 : Byte) :
    dataPhase16 (bytesWord b0 b1 b2 b3) = b2 ++ b3 := by
  apply BitVec.eq_of_getLsbD_eq
  intro i hi
  simp only [dataPhase16, bytesWord, BitVec.getLsbD_extractLsb', BitVec.getLsbD_append, hi, decide_true,
    Bool.true_and]
  by_cases h : i < 8
  · simp [h]
  · simp [h, show i - 8 < 8 by omega]

/-! ## Bits -/

/-- Bit `i` of a word built from fields. -/
theorem getLsbD_cmdWord (op : Opcode) (led : Byte) (data : PatWord) (i : Nat) :
    (cmdWord op led data).getLsbD i =
      if i < 32 then data.getLsbD i else if i < 40 then led.getLsbD (i - 32)
      else if i < 44 then false else op.getLsbD (i - 44) := by
  simp only [cmdWord, BitVec.getLsbD_append]
  by_cases h1 : i < 32
  · simp [h1]
  by_cases h2 : i < 40
  · simp [h1, h2, show i - 32 < 8 by omega]
  by_cases h3 : i < 44
  · simp [h1, h2, h3, show ¬ i - 32 < 8 by omega, show i - 32 - 8 < 4 by omega]
  · simp [h1, h2, h3, show ¬ i - 32 < 8 by omega, show ¬ i - 32 - 8 < 4 by omega,
      show i - 32 - 8 - 4 = i - 44 by omega]

/-- Bit `i` of the data of a SETPAT. -/
theorem getLsbD_patData (sh : Byte) (ph : BitVec 16) (i : Nat) :
    (patData sh ph).getLsbD i =
      if i < 16 then ph.getLsbD i else if i < 24 then false else sh.getLsbD (i - 24) := by
  simp only [patData, BitVec.getLsbD_append]
  by_cases h1 : i < 16
  · simp [h1]
  by_cases h2 : i < 24
  · simp [h1, h2, show i - 16 < 8 by omega]
  · simp [h1, h2, show ¬ i - 16 < 8 by omega, show i - 16 - 8 = i - 24 by omega]

/-- Bit `44 + i` of a word is bit `i` of its opcode. -/
theorem getLsbD_op (w : Cmd) (i : Nat) (h : i < 4) : w.getLsbD (44 + i) = (cmdOp w).getLsbD i := by
  simp [cmdOp, h]

/-! ## Canonical words -/

/-- Every opcode uses the four bits of its own field. -/
theorem usedBits_op (op : Opcode) (i : Nat) (h : i < 4) : (usedBits op).getLsbD (44 + i) = true := by
  revert op
  rcases (show i = 0 ∨ i = 1 ∨ i = 2 ∨ i = 3 by omega) with h | h | h | h <;> subst h <;> decide

/-- The canonical word has the same opcode. -/
@[simp] theorem cmdOp_canonicalWord (w : Cmd) : cmdOp (canonicalWord w) = cmdOp w := by
  apply BitVec.eq_of_getLsbD_eq
  intro i hi
  rw [← getLsbD_op _ _ hi, ← getLsbD_op _ _ hi]
  simp only [canonicalWord, BitVec.getLsbD_and, usedBits_op _ _ hi, Bool.and_true]

/-- Clearing the ignored bits twice is clearing them once. -/
@[simp] theorem canonicalWord_canonicalWord (w : Cmd) : canonicalWord (canonicalWord w) = canonicalWord w := by
  have h := cmdOp_canonicalWord w
  unfold canonicalWord at *
  rw [h, BitVec.and_assoc, BitVec.and_self]

/-- The sixteen opcodes, case by case. -/
theorem opcode_cases (op : Opcode) :
    op = 0x0 ∨ op = 0x1 ∨ op = 0x2 ∨ op = 0x3 ∨ op = 0x4 ∨ op = 0x5 ∨ op = 0x6 ∨ op = 0x7
    ∨ op = 0x8 ∨ op = 0x9 ∨ op = 0xA ∨ op = 0xB ∨ op = 0xC ∨ op = 0xD ∨ op = 0xE ∨ op = 0xF := by
  revert op; decide

/-- The opcode field of a word is its topmost four bits as a number. -/
theorem cmdOp_toNat (w : Cmd) : (cmdOp w).toNat = w.toNat / 2 ^ 44 := by
  have hw := w.isLt
  simp only [cmdOp, BitVec.extractLsb'_toNat, Nat.shiftRight_eq_div_pow]
  omega

end Sys2Proof
end

