-- ==== Sys2Proof/Laws/State.lean ====
section
/-! SUPPORT. One lemma per field per named update of the state, so that no later proof unfolds an update. -/

namespace Sys2Proof.Machine

variable (s : State)

@[simp] theorem State.withSlots_slots (b : Bank Slot) : (s.withSlots b).slots = b := rfl
@[simp] theorem State.withSlots_rsp (b : Bank Slot) : (s.withSlots b).rsp = s.rsp := rfl
@[simp] theorem State.withSlots_random (b : Bank Slot) : (s.withSlots b).random = s.random := rfl
@[simp] theorem State.withSlots_inputs (b : Bank Slot) : (s.withSlots b).inputs = s.inputs := rfl

@[simp] theorem State.withRandom_slots (r : RandomPort) : (s.withRandom r).slots = s.slots := rfl
@[simp] theorem State.withRandom_rsp (r : RandomPort) : (s.withRandom r).rsp = s.rsp := rfl
@[simp] theorem State.withRandom_random (r : RandomPort) : (s.withRandom r).random = r := rfl
@[simp] theorem State.withRandom_inputs (r : RandomPort) : (s.withRandom r).inputs = s.inputs := rfl

@[simp] theorem State.withRsp_slots (v : Option PatWord) : (s.withRsp v).slots = s.slots := rfl
@[simp] theorem State.withRsp_rsp (v : Option PatWord) : (s.withRsp v).rsp = v := rfl
@[simp] theorem State.withRsp_random (v : Option PatWord) : (s.withRsp v).random = s.random := rfl
@[simp] theorem State.withRsp_inputs (v : Option PatWord) : (s.withRsp v).inputs = s.inputs := rfl

@[simp] theorem State.withInputs_slots (l : List Input) : (s.withInputs l).slots = s.slots := rfl
@[simp] theorem State.withInputs_rsp (l : List Input) : (s.withInputs l).rsp = s.rsp := rfl
@[simp] theorem State.withInputs_random (l : List Input) : (s.withInputs l).random = s.random := rfl
@[simp] theorem State.withInputs_inputs (l : List Input) : (s.withInputs l).inputs = l := rfl

@[simp] theorem State.respond_slots (v : PatWord) : (s.respond v).slots = s.slots := rfl
@[simp] theorem State.respond_rsp (v : PatWord) : (s.respond v).rsp = some v := rfl
@[simp] theorem State.respond_random (v : PatWord) : (s.respond v).random = s.random := rfl
@[simp] theorem State.respond_inputs (v : PatWord) : (s.respond v).inputs = s.inputs := rfl

@[simp] theorem State.modifySlot_slots (i : Nat) (f : Slot → Slot) :
    (s.modifySlot i f).slots = s.slots.modify i f := rfl
@[simp] theorem State.modifySlot_rsp (i : Nat) (f : Slot → Slot) : (s.modifySlot i f).rsp = s.rsp := rfl
@[simp] theorem State.modifySlot_random (i : Nat) (f : Slot → Slot) :
    (s.modifySlot i f).random = s.random := rfl
@[simp] theorem State.modifySlot_inputs (i : Nat) (f : Slot → Slot) :
    (s.modifySlot i f).inputs = s.inputs := rfl

@[simp] theorem State.resetRegisters_slots :
    s.resetRegisters.slots = s.slots.map fun _ => Slot.reset := rfl
@[simp] theorem State.resetRegisters_rsp : s.resetRegisters.rsp = none := rfl
@[simp] theorem State.resetRegisters_random : s.resetRegisters.random = s.random := rfl
@[simp] theorem State.resetRegisters_inputs : s.resetRegisters.inputs = s.inputs := rfl

end Sys2Proof.Machine
end

