-- ==== Sys2Proof/Laws/Ops.lean ====
section
/-! SUPPORT. The laws of the shared operations: banks (read after write, writes elsewhere, maps, a threaded
run), one slot's write, the addressed index, and draws. -/

namespace Sys2Proof.Machine

/-! ## Banks -/

section Banks

variable {α β γ σ : Type}

theorem Bank.size_pos (b : Bank α) : 0 < b.size := Nat.succ_pos _

@[simp] theorem Bank.size_modify (b : Bank α) (i : Nat) (f : α → α) : (b.modify i f).size = b.size := by
  cases i <;> simp [Bank.modify, Bank.size]

@[simp] theorem Bank.size_map (b : Bank α) (f : α → β) : (b.map f).size = b.size := by
  simp [Bank.map, Bank.size]

/-- Two banks of one size that agree at every index are equal. -/
theorem Bank.ext_get {b c : Bank α} (hs : b.size = c.size) (h : ∀ i, i < b.size → b.get i = c.get i) :
    b = c := by
  obtain ⟨bf, br⟩ := b
  obtain ⟨cf, cr⟩ := c
  have h0 : bf = cf := h 0 (Bank.size_pos _)
  have hl : br.length = cr.length := by simpa [Bank.size] using hs
  have hr : br = cr := by
    apply List.ext_getElem hl
    intro i hi hi'
    have := h (i + 1) (by simpa [Bank.size] using hi)
    simpa [Bank.get, hi, hi'] using this
  rw [h0, hr]

/-- Read after write, at the index written. -/
@[simp] theorem Bank.get_modify_self (b : Bank α) {i : Nat} (h : i < b.size) (f : α → α) :
    (b.modify i f).get i = f (b.get i) := by
  cases i with
  | zero => rfl
  | succ k =>
    have hk : k < b.rest.length := by simpa [Bank.size] using h
    simp [Bank.modify, Bank.get, hk]

/-- Read after write, at any other index. -/
theorem Bank.get_modify_ne (b : Bank α) {i j : Nat} (hj : j < b.size) (h : j ≠ i) (f : α → α) :
    (b.modify i f).get j = b.get j := by
  cases i with
  | zero =>
    cases j with
    | zero => exact absurd rfl h
    | succ m => have hm : m < b.rest.length := by simpa [Bank.size] using hj
                simp [Bank.modify, Bank.get, hm]
  | succ k =>
    cases j with
    | zero => rfl
    | succ m =>
      have hm : m < b.rest.length := by simpa [Bank.size] using hj
      have hkm : k ≠ m := fun e => h (by rw [e])
      simp [Bank.modify, Bank.get, hm, hkm]

/-- Read after write, at every index of the bank. -/
theorem Bank.get_modify (b : Bank α) {i j : Nat} (hj : j < b.size) (f : α → α) :
    (b.modify i f).get j = if j = i then f (b.get j) else b.get j := by
  split
  · subst_vars; exact Bank.get_modify_self b hj f
  · exact Bank.get_modify_ne b hj ‹_› f

@[simp] theorem Bank.get_map (b : Bank α) (f : α → β) {i : Nat} (h : i < b.size) :
    (b.map f).get i = f (b.get i) := by
  cases i with
  | zero => rfl
  | succ k =>
    have hk : k < b.rest.length := by simpa [Bank.size] using h
    simp [Bank.map, Bank.get, hk]

@[simp] theorem Bank.map_map (b : Bank α) (f : α → β) (g : β → γ) :
    (b.map f).map g = b.map (fun x => g (f x)) := by
  simp [Bank.map, Function.comp_def]

theorem threadList_length (f : α → σ → β × σ) (l : List α) (st : σ) :
    (threadList f l st).1.length = l.length := by
  induction l generalizing st with
  | nil => rfl
  | cons a as ih => simp [threadList, ih]

theorem threadList_map (f : β → σ → γ × σ) (g : α → β) (l : List α) (st : σ) :
    threadList f (l.map g) st = threadList (fun a => f (g a)) l st := by
  induction l generalizing st with
  | nil => rfl
  | cons a as ih => simp [threadList, ih]

@[simp] theorem Bank.size_thread (f : α → σ → β × σ) (b : Bank α) (st : σ) :
    (b.thread f st).1.size = b.size := by
  simp [Bank.thread, Bank.size, threadList_length]

/-- Mapping first and threading afterwards is threading the composition: the passes may be fused. -/
theorem Bank.thread_map (f : β → σ → γ × σ) (g : α → β) (b : Bank α) (st : σ) :
    (b.map g).thread f st = b.thread (fun a => f (g a)) st := by
  simp [Bank.thread, Bank.map, threadList_map]

/-- What a threaded run finds at its `i`-th entry and hands on after it: if `at' i` is the state the entries
before `i` leave, then entry `i` is run in it. -/
theorem threadList_spec (f : α → σ → β × σ) (l : List α) (d : β) (reach : Nat → σ)
    (hstep : ∀ i (h : i < l.length), (f l[i] (reach i)).2 = reach (i + 1)) :
    (∀ i (h : i < l.length), (threadList f l (reach 0)).1.getD i d = (f l[i] (reach i)).1)
      ∧ (threadList f l (reach 0)).2 = reach l.length := by
  induction l generalizing reach with
  | nil => exact ⟨fun i h => absurd h (Nat.not_lt_zero _), rfl⟩
  | cons a as ih =>
    have h0 : (f a (reach 0)).2 = reach 1 := hstep 0 (Nat.succ_pos _)
    have hs := ih (fun i => reach (i + 1)) fun i h => hstep (i + 1) (Nat.succ_lt_succ h)
    refine ⟨fun i h => ?_, ?_⟩
    · cases i with
      | zero => simp [threadList]
      | succ k =>
        simpa [threadList, h0] using hs.1 k (Nat.lt_of_succ_lt_succ h)
    · simpa [threadList, h0] using hs.2

/-- The same of a bank. -/
theorem Bank.thread_spec (f : α → σ → β × σ) (b : Bank α) (reach : Nat → σ)
    (hstep : ∀ i, i < b.size → (f (b.get i) (reach i)).2 = reach (i + 1)) :
    (∀ i, i < b.size → (b.thread f (reach 0)).1.get i = (f (b.get i) (reach i)).1)
      ∧ (b.thread f (reach 0)).2 = reach b.size := by
  have h0 : (f b.first (reach 0)).2 = reach 1 := hstep 0 b.size_pos
  have hs := threadList_spec f b.rest (f b.first (reach 0)).1 (fun i => reach (i + 1)) fun i h => by
    have := hstep (i + 1) (Nat.succ_lt_succ h)
    simpa [Bank.get, h] using this
  refine ⟨fun i h => ?_, ?_⟩
  · cases i with
    | zero => rfl
    | succ k =>
      have hk : k < b.rest.length := by simpa [Bank.size] using h
      simpa [Bank.thread, Bank.get, h0, hk] using hs.1 k hk
  · simpa [Bank.thread, Bank.size, h0] using hs.2

end Banks

/-! ## Slots of a state -/

theorem State.numLeds_pos (s : State) : 0 < s.numLeds := Bank.size_pos _

/-- The addressed index is an index of the slot file, whatever `led` is. -/
theorem State.idx_lt (s : State) (led : Byte) : s.idx led < s.numLeds := Nat.mod_lt _ s.numLeds_pos

@[simp] theorem State.numLeds_withSlots (s : State) (b : Bank Slot) : (s.withSlots b).numLeds = b.size := rfl
@[simp] theorem State.numLeds_withRandom (s : State) (r : RandomPort) :
    (s.withRandom r).numLeds = s.numLeds := rfl
@[simp] theorem State.numLeds_withRsp (s : State) (v : Option PatWord) : (s.withRsp v).numLeds = s.numLeds := rfl
@[simp] theorem State.numLeds_withInputs (s : State) (l : List Input) :
    (s.withInputs l).numLeds = s.numLeds := rfl
@[simp] theorem State.numLeds_respond (s : State) (v : PatWord) : (s.respond v).numLeds = s.numLeds := rfl
@[simp] theorem State.numLeds_modifySlot (s : State) (i : Nat) (f : Slot → Slot) :
    (s.modifySlot i f).numLeds = s.numLeds := Bank.size_modify _ _ _
@[simp] theorem State.numLeds_resetRegisters (s : State) : s.resetRegisters.numLeds = s.numLeds :=
  Bank.size_map _ _

@[simp] theorem State.slot_withRandom (s : State) (r : RandomPort) (i : Nat) :
    (s.withRandom r).slot i = s.slot i := rfl
@[simp] theorem State.slot_withRsp (s : State) (v : Option PatWord) (i : Nat) :
    (s.withRsp v).slot i = s.slot i := rfl
@[simp] theorem State.slot_withInputs (s : State) (l : List Input) (i : Nat) :
    (s.withInputs l).slot i = s.slot i := rfl
@[simp] theorem State.slot_respond (s : State) (v : PatWord) (i : Nat) : (s.respond v).slot i = s.slot i := rfl

/-- A slot after one slot was written. -/
theorem State.slot_modifySlot (s : State) {i j : Nat} (hj : j < s.numLeds) (f : Slot → Slot) :
    (s.modifySlot i f).slot j = if j = i then f (s.slot j) else s.slot j :=
  Bank.get_modify s.slots hj f

@[simp] theorem State.slot_resetRegisters (s : State) {i : Nat} (h : i < s.numLeds) :
    s.resetRegisters.slot i = Slot.reset :=
  Bank.get_map s.slots _ h

/-- Two states are equal when their fields outside the slot file are, and every slot is. -/
theorem State.ext_slots {s t : State} (hn : t.numLeds = s.numLeds)
    (hs : ∀ i, i < s.numLeds → t.slot i = s.slot i) (hr : t.rsp = s.rsp) (hq : t.random = s.random)
    (hi : t.inputs = s.inputs) : t = s := by
  obtain ⟨sb, sr, sq, si⟩ := s
  obtain ⟨tb, tr, tq, ti⟩ := t
  have hb : tb = sb := Bank.ext_get hn fun i h => hs i (by rw [← hn]; exact h)
  subst hb
  cases hr; cases hq; cases hi
  rfl

/-! ## Draws -/

/-- Every draw counts one request. -/
@[simp] theorem RandomPort.draw_requests (r : RandomPort) : r.draw.2.requests = r.requests + 1 := by
  unfold RandomPort.draw; split <;> rfl

/-- Every draw takes the next queued answer away. -/
@[simp] theorem RandomPort.draw_answers (r : RandomPort) : r.draw.2.answers = r.answers.tail := by
  unfold RandomPort.draw; split <;> simp_all

@[simp] theorem RandomPort.afterDraws_zero (r : RandomPort) : r.afterDraws 0 = r := rfl

theorem RandomPort.afterDraws_succ (r : RandomPort) (k : Nat) :
    r.afterDraws (k + 1) = (r.afterDraws k).draw.2 := rfl

@[simp] theorem RandomPort.afterDraws_requests (r : RandomPort) (k : Nat) :
    (r.afterDraws k).requests = r.requests + k := by
  induction k with
  | zero => rfl
  | succ k ih => simp [RandomPort.afterDraws_succ, ih, Nat.add_assoc]

@[simp] theorem RandomPort.afterDraws_answers (r : RandomPort) (k : Nat) :
    (r.afterDraws k).answers = r.answers.drop k := by
  induction k with
  | zero => rfl
  | succ k ih => simp [RandomPort.afterDraws_succ, ih]

@[simp] theorem drawByte_toNat (d : Config.Draw) : (drawByte d).toNat = d.val := by
  have := d.isLt
  simp only [drawByte, BitVec.toNat_ofNat, Config.RAND_BOUND] at *
  omega

/-- A queued answer is the draw's value. -/
theorem RandomPort.draw_queued (r : RandomPort) (d : Config.Draw) (ds : List Config.Draw)
    (h : r.answers = d :: ds) : r.draw.1 = drawByte d := by
  simp [RandomPort.draw, h]

/-- Every draw, queued or free, is some answer's byte. -/
theorem RandomPort.draw_isAnswer (r : RandomPort) : ∃ d, r.draw.1 = drawByte d := by
  unfold RandomPort.draw; split <;> exact ⟨_, rfl⟩

/-- Every draw is at most 254 (spec/70_reset_and_hazards.md R244). -/
theorem RandomPort.draw_le (r : RandomPort) : r.draw.1.toNat ≤ 254 := by
  obtain ⟨d, h⟩ := r.draw_isAnswer
  rw [h, drawByte_toNat]
  exact Nat.le_of_lt_succ d.isLt

end Sys2Proof.Machine
end

