-- ==== Sys2Proof/Laws/PerInstr.lean ====
section
/-! SUPPORT. Facts about instructions as syntax, one lemma per constructor. -/

namespace Sys2Proof.Laws.EncodedFields

/-- An instruction's word carries its opcode in `cmd[47:44]` and zero in `rsv`
(spec/30_encoding.md R81, R84, R89). -/
def Statement (i : Instr) : Prop := cmdOp (encode i) = opcodeOf i ∧ cmdRsv (encode i) = 0

/-- `rsv` of a word built from fields is zero. -/
theorem cmdRsv_cmdWord (op : Opcode) (led : Byte) (data : PatWord) : cmdRsv (cmdWord op led data) = 0 := by
  apply BitVec.eq_of_getLsbD_eq
  intro i hi
  simp only [cmdRsv, cmdWord, BitVec.getLsbD_extractLsb', BitVec.getLsbD_append, hi, decide_true,
    Bool.true_and]
  simp [show ¬ (40 + i < 32) by omega, show ¬ (40 + i - 32 < 8) by omega,
    show (40 + i - 32 - 8 < 4) by omega]

/-- Every word the encoder builds from fields has both. -/
theorem of_cmdWord {i : Instr} {led : Byte} {data : PatWord} (h : encode i = cmdWord (opcodeOf i) led data) :
    Statement i := by
  unfold Statement
  rw [h]
  exact ⟨cmdOp_cmdWord _ _ _, cmdRsv_cmdWord _ _ _⟩

theorem nop : Statement .nop := of_cmdWord rfl
theorem setrate (led : Byte) (value : Ctrl) : Statement (.setrate led value) := of_cmdWord rfl
theorem setscale (led : Byte) (value : Ctrl) : Statement (.setscale led value) := of_cmdWord rfl
theorem settrig (led : Byte) (value : Ctrl) : Statement (.settrig led value) := of_cmdWord rfl
theorem setpat (led shape : Byte) (phase16 : BitVec 16) : Statement (.setpat led shape phase16) :=
  of_cmdWord rfl
theorem rdpat (led : Byte) : Statement (.rdpat led) := of_cmdWord rfl
theorem tick : Statement .tick := of_cmdWord rfl
theorem reserved7 : Statement .reserved7 := of_cmdWord rfl
theorem reserved8 : Statement .reserved8 := of_cmdWord rfl
theorem reserved9 : Statement .reserved9 := of_cmdWord rfl
theorem reservedA : Statement .reservedA := of_cmdWord rfl
theorem reservedB : Statement .reservedB := of_cmdWord rfl
theorem reservedC : Statement .reservedC := of_cmdWord rfl
theorem reservedD : Statement .reservedD := of_cmdWord rfl
theorem reservedE : Statement .reservedE := of_cmdWord rfl
theorem reservedF : Statement .reservedF := of_cmdWord rfl
theorem ldpat (led b0 b1 b2 b3 : Byte) : Statement (.ldpat led b0 b1 b2 b3) := of_cmdWord rfl
theorem encpat (led : Byte) : Statement (.encpat led) := of_cmdWord rfl

end Sys2Proof.Laws.EncodedFields
end

