-- ==== Sys2Proof/Laws/Tick.lean ====
section
/-! SUPPORT. The laws of TICK: what each pass writes and leaves, what passes 1 and 2 together make of a slot,
and what the whole command does, said once. -/

namespace Sys2Proof.Machine

/-! ## Pass 1 -/

section Pass1

variable (sl : Slot)

theorem gateSlot_oneshot (h : trigMode sl.shape = .oneshot) :
    gateSlot sl = { sl with changeEnabled := sl.changeEnabled || risingEdge sl, prevTrig := sl.trig } := by
  simp [gateSlot, h]

theorem gateSlot_gate (h : trigMode sl.shape ≠ .oneshot) :
    gateSlot sl = { sl with changeEnabled := trigHigh sl } := by
  unfold gateSlot
  split
  · exact absurd ‹_› h
  · rfl
  · rfl

@[simp] theorem gateSlot_shape : (gateSlot sl).shape = sl.shape := by unfold gateSlot; split <;> rfl
@[simp] theorem gateSlot_phase : (gateSlot sl).phase = sl.phase := by unfold gateSlot; split <;> rfl
@[simp] theorem gateSlot_counter : (gateSlot sl).counter = sl.counter := by unfold gateSlot; split <;> rfl
@[simp] theorem gateSlot_rate : (gateSlot sl).rate = sl.rate := by unfold gateSlot; split <;> rfl
@[simp] theorem gateSlot_scale : (gateSlot sl).scale = sl.scale := by unfold gateSlot; split <;> rfl
@[simp] theorem gateSlot_trig : (gateSlot sl).trig = sl.trig := by unfold gateSlot; split <;> rfl
@[simp] theorem gateSlot_cycleCount : (gateSlot sl).cycleCount = sl.cycleCount := by
  unfold gateSlot; split <;> rfl
@[simp] theorem gateSlot_out : (gateSlot sl).out = sl.out := by unfold gateSlot; split <;> rfl
@[simp] theorem gateSlot_upd : (gateSlot sl).upd = sl.upd := by unfold gateSlot; split <;> rfl
@[simp] theorem gateSlot_advancedSum : advancedSum (gateSlot sl) = advancedSum sl := by
  simp [advancedSum]

end Pass1

/-! ## Miss accounting -/

section Miss

variable (sl : Slot)

@[simp] theorem endShot_shape : (endShot sl).shape = sl.shape := by unfold endShot; split <;> rfl
@[simp] theorem endShot_phase : (endShot sl).phase = sl.phase := by unfold endShot; split <;> rfl
@[simp] theorem endShot_counter : (endShot sl).counter = sl.counter := by unfold endShot; split <;> rfl
@[simp] theorem endShot_rate : (endShot sl).rate = sl.rate := by unfold endShot; split <;> rfl
@[simp] theorem endShot_scale : (endShot sl).scale = sl.scale := by unfold endShot; split <;> rfl
@[simp] theorem endShot_trig : (endShot sl).trig = sl.trig := by unfold endShot; split <;> rfl
@[simp] theorem endShot_prevTrig : (endShot sl).prevTrig = sl.prevTrig := by unfold endShot; split <;> rfl
@[simp] theorem endShot_cycleCount : (endShot sl).cycleCount = sl.cycleCount := by
  unfold endShot; split <;> rfl
@[simp] theorem endShot_out : (endShot sl).out = sl.out := by unfold endShot; split <;> rfl
@[simp] theorem endShot_upd : (endShot sl).upd = sl.upd := by unfold endShot; split <;> rfl
theorem endShot_changeEnabled :
    (endShot sl).changeEnabled = (!decide (trigMode sl.shape = .oneshot) && sl.changeEnabled) := by
  unfold endShot; split <;> simp_all

/-- A wrap ends the pattern: the last miss cycle is over, or there is none. -/
def lastCycle (sl : Slot) : Bool :=
  decide (missLen sl.shape = 0) || decide (sl.cycleCount.toNat = missLen sl.shape)

theorem missAccounting_last (h : lastCycle sl = true) :
    missAccounting sl = endShot { sl with cycleCount := 0 } := by
  unfold missAccounting
  simp only [lastCycle, Bool.or_eq_true, decide_eq_true_eq] at h
  split
  · rw [if_pos (by omega)]
  · rfl

theorem missAccounting_more (h : lastCycle sl = false) :
    missAccounting sl = { sl with cycleCount := sl.cycleCount + 1 } := by
  unfold missAccounting
  simp only [lastCycle, Bool.or_eq_false_iff, decide_eq_false_iff_not] at h
  rw [if_pos (by omega), if_neg h.2]

@[simp] theorem missAccounting_shape : (missAccounting sl).shape = sl.shape := by
  unfold missAccounting; split <;> (try split) <;> simp
@[simp] theorem missAccounting_phase : (missAccounting sl).phase = sl.phase := by
  unfold missAccounting; split <;> (try split) <;> simp
@[simp] theorem missAccounting_counter : (missAccounting sl).counter = sl.counter := by
  unfold missAccounting; split <;> (try split) <;> simp
@[simp] theorem missAccounting_rate : (missAccounting sl).rate = sl.rate := by
  unfold missAccounting; split <;> (try split) <;> simp
@[simp] theorem missAccounting_scale : (missAccounting sl).scale = sl.scale := by
  unfold missAccounting; split <;> (try split) <;> simp
@[simp] theorem missAccounting_trig : (missAccounting sl).trig = sl.trig := by
  unfold missAccounting; split <;> (try split) <;> simp
@[simp] theorem missAccounting_prevTrig : (missAccounting sl).prevTrig = sl.prevTrig := by
  unfold missAccounting; split <;> (try split) <;> simp
@[simp] theorem missAccounting_out : (missAccounting sl).out = sl.out := by
  unfold missAccounting; split <;> (try split) <;> simp
@[simp] theorem missAccounting_upd : (missAccounting sl).upd = sl.upd := by
  unfold missAccounting; split <;> (try split) <;> simp

end Miss

/-! ## Passes 1 and 2 together -/

section AfterPass2

variable (sl : Slot)

/-- The slot wraps in this tick: it is enabled by pass 1, and its sum reaches a cycle. -/
def wrapsNow (sl : Slot) : Bool := (gateSlot sl).changeEnabled && decide (Config.CYCLE ≤ advancedSum sl)

theorem afterPass2_idle (h : (gateSlot sl).changeEnabled = false) :
    afterPass2 sl = { slot := gateSlot sl, wrapped := false } := by
  simp [afterPass2, pass1, pass2, Lane.start, h]

theorem afterPass2_advance (h : (gateSlot sl).changeEnabled = true) (hs : advancedSum sl < Config.CYCLE) :
    afterPass2 sl = { slot := { gateSlot sl with counter := BitVec.ofNat Config.PHASE_W (advancedSum sl) }
                      wrapped := false } := by
  simp [afterPass2, pass1, pass2, Lane.start, h, Nat.not_le.mpr hs]

theorem afterPass2_wrap (h : (gateSlot sl).changeEnabled = true) (hs : Config.CYCLE ≤ advancedSum sl) :
    afterPass2 sl = { slot := missAccounting { gateSlot sl with
                        counter := BitVec.ofNat Config.PHASE_W (advancedSum sl - Config.CYCLE) }
                      wrapped := true } := by
  simp [afterPass2, pass1, pass2, Lane.start, h, hs]

/-- What passes 1 and 2 make of a slot: it stays, it advances, or it wraps; there is no fourth case. -/
theorem afterPass2_cases :
    ((gateSlot sl).changeEnabled = false ∧ afterPass2 sl = { slot := gateSlot sl, wrapped := false })
    ∨ ((gateSlot sl).changeEnabled = true ∧ advancedSum sl < Config.CYCLE ∧
        afterPass2 sl =
          { slot := { gateSlot sl with counter := BitVec.ofNat Config.PHASE_W (advancedSum sl) }
            wrapped := false })
    ∨ ((gateSlot sl).changeEnabled = true ∧ Config.CYCLE ≤ advancedSum sl ∧
        afterPass2 sl =
          { slot := missAccounting { gateSlot sl with
              counter := BitVec.ofNat Config.PHASE_W (advancedSum sl - Config.CYCLE) }
            wrapped := true }) := by
  cases h : (gateSlot sl).changeEnabled with
  | false => exact .inl ⟨rfl, afterPass2_idle sl h⟩
  | true =>
    rcases Nat.lt_or_ge (advancedSum sl) Config.CYCLE with hs | hs
    · exact .inr (.inl ⟨rfl, hs, afterPass2_advance sl h hs⟩)
    · exact .inr (.inr ⟨rfl, hs, afterPass2_wrap sl h hs⟩)

@[simp] theorem afterPass2_shape : (afterPass2 sl).slot.shape = sl.shape := by
  rcases afterPass2_cases sl with ⟨_, h⟩ | ⟨_, _, h⟩ | ⟨_, _, h⟩ <;> simp [h]
@[simp] theorem afterPass2_phase : (afterPass2 sl).slot.phase = sl.phase := by
  rcases afterPass2_cases sl with ⟨_, h⟩ | ⟨_, _, h⟩ | ⟨_, _, h⟩ <;> simp [h]
@[simp] theorem afterPass2_rate : (afterPass2 sl).slot.rate = sl.rate := by
  rcases afterPass2_cases sl with ⟨_, h⟩ | ⟨_, _, h⟩ | ⟨_, _, h⟩ <;> simp [h]
@[simp] theorem afterPass2_scale : (afterPass2 sl).slot.scale = sl.scale := by
  rcases afterPass2_cases sl with ⟨_, h⟩ | ⟨_, _, h⟩ | ⟨_, _, h⟩ <;> simp [h]
@[simp] theorem afterPass2_trig : (afterPass2 sl).slot.trig = sl.trig := by
  rcases afterPass2_cases sl with ⟨_, h⟩ | ⟨_, _, h⟩ | ⟨_, _, h⟩ <;> simp [h]
@[simp] theorem afterPass2_prevTrig : (afterPass2 sl).slot.prevTrig = (gateSlot sl).prevTrig := by
  rcases afterPass2_cases sl with ⟨_, h⟩ | ⟨_, _, h⟩ | ⟨_, _, h⟩ <;> simp [h]
@[simp] theorem afterPass2_out : (afterPass2 sl).slot.out = sl.out := by
  rcases afterPass2_cases sl with ⟨_, h⟩ | ⟨_, _, h⟩ | ⟨_, _, h⟩ <;> simp [h]
@[simp] theorem afterPass2_upd : (afterPass2 sl).slot.upd = sl.upd := by
  rcases afterPass2_cases sl with ⟨_, h⟩ | ⟨_, _, h⟩ | ⟨_, _, h⟩ <;> simp [h]

theorem afterPass2_wrapped : (afterPass2 sl).wrapped = wrapsNow sl := by
  rcases afterPass2_cases sl with ⟨h, h'⟩ | ⟨h, hs, h'⟩ | ⟨h, hs, h'⟩
  · simp [h', wrapsNow, h]
  · simp [h', wrapsNow, Nat.not_le.mpr hs]
  · simp [h', wrapsNow, h, hs]

/-- The sum never reaches two cycles: one subtraction always suffices. -/
theorem advancedSum_lt : advancedSum sl < Config.CYCLE + 255 := by
  have h1 := sl.counter.isLt
  have h2 := sl.rate.isLt
  simp only [advancedSum, Config.CYCLE]
  omega

/-- The counter after passes 1 and 2. -/
theorem afterPass2_counter :
    (afterPass2 sl).slot.counter.toNat =
      if (gateSlot sl).changeEnabled then advancedSum sl % Config.CYCLE else sl.counter.toNat := by
  have hlt := advancedSum_lt sl
  simp only [Config.CYCLE] at hlt
  rcases afterPass2_cases sl with ⟨h, h'⟩ | ⟨h, hs, h'⟩ | ⟨h, hs, h'⟩
  · simp [h', h]
  · simp [h', h, Config.PHASE_W, Config.CYCLE]
  · simp only [h', h, missAccounting_counter, if_true, Config.PHASE_W, BitVec.toNat_ofNat]
    simp only [Config.CYCLE] at *
    omega

/-- `changeEnabled` after passes 1 and 2: pass 2 clears it only at the wrap that ends a shot. -/
theorem afterPass2_changeEnabled :
    (afterPass2 sl).slot.changeEnabled =
      ((gateSlot sl).changeEnabled
        && !(wrapsNow sl && lastCycle sl && decide (trigMode sl.shape = .oneshot))) := by
  rcases afterPass2_cases sl with ⟨h, h'⟩ | ⟨h, hs, h'⟩ | ⟨h, hs, h'⟩
  · simp [h', h]
  · simp [h', h, wrapsNow, Nat.not_le.mpr hs]
  · cases hl : lastCycle sl with
    | true =>
      rw [h', missAccounting_last _ (by simpa [lastCycle] using hl), endShot_changeEnabled]
      simp [h, wrapsNow, hs]
    | false =>
      rw [h', missAccounting_more _ (by simpa [lastCycle] using hl)]
      simp [h]

/-- `cycleCount` after passes 1 and 2. -/
theorem afterPass2_cycleCount :
    (afterPass2 sl).slot.cycleCount =
      if wrapsNow sl then (if lastCycle sl then 0 else sl.cycleCount + 1) else sl.cycleCount := by
  rcases afterPass2_cases sl with ⟨h, h'⟩ | ⟨h, hs, h'⟩ | ⟨h, hs, h'⟩
  · simp [h', h, wrapsNow]
  · simp [h', wrapsNow, Nat.not_le.mpr hs]
  · cases hl : lastCycle sl with
    | true =>
      rw [h', missAccounting_last _ (by simpa [lastCycle] using hl)]
      simp [h, wrapsNow, hs]
    | false =>
      rw [h', missAccounting_more _ (by simpa [lastCycle] using hl)]
      simp [h, wrapsNow, hs]

end AfterPass2

/-! ## Pass 3 -/

section Pass3

variable (sl : Slot) (r : RandomPort)

theorem tickSlot_forced (h : forcedZero (afterPass2 sl).slot = true) :
    tickSlot sl r = (emit 0 (afterPass2 sl).slot, r) := by
  simp [tickSlot, pass3, h]

theorem tickSlot_row (h : forcedZero (afterPass2 sl).slot = false) {row : RomRow}
    (hm : muxSelect (shapeSel sl.shape) = .row row) :
    tickSlot sl r =
      (emit (levelOf sl.shape sl.scale (rom row (afterPass2 sl).slot.counter)) (afterPass2 sl).slot, r) := by
  simp [tickSlot, pass3, h, baseSample, hm]

@[simp] theorem drawnBase_eq (b : Byte) : drawnBase b = b := rfl

theorem tickSlot_draw (h : forcedZero (afterPass2 sl).slot = false)
    (hm : muxSelect (shapeSel sl.shape) = .random) (hw : wrapsNow sl = true) :
    tickSlot sl r = (emit (levelOf sl.shape sl.scale r.draw.1) (afterPass2 sl).slot, r.draw.2) := by
  simp [tickSlot, pass3, h, baseSample, hm, afterPass2_wrapped, hw]

theorem tickSlot_hold (h : forcedZero (afterPass2 sl).slot = false)
    (hm : muxSelect (shapeSel sl.shape) = .random) (hw : wrapsNow sl = false) :
    tickSlot sl r = (hold (afterPass2 sl).slot, r) := by
  simp [tickSlot, pass3, h, baseSample, hm, afterPass2_wrapped, hw]

/-- Under `ShapeLayout` every code is assigned: the last arm of the multiplexer is dead. -/
theorem muxSelect_assigned (sel : Sel) : muxSelect sel ≠ .unassigned := by
  revert sel; decide

/-- What a TICK makes of a slot, after passes 1 and 2: a forced zero, a sample of a ROM row, a drawn level, or
no emission; there is no fifth case. -/
theorem tickSlot_cases :
    (forcedZero (afterPass2 sl).slot = true ∧ tickSlot sl r = (emit 0 (afterPass2 sl).slot, r))
    ∨ (forcedZero (afterPass2 sl).slot = false ∧ ∃ row, muxSelect (shapeSel sl.shape) = .row row ∧
        tickSlot sl r =
          (emit (levelOf sl.shape sl.scale (rom row (afterPass2 sl).slot.counter)) (afterPass2 sl).slot, r))
    ∨ (forcedZero (afterPass2 sl).slot = false ∧ muxSelect (shapeSel sl.shape) = .random ∧
        wrapsNow sl = true ∧
        tickSlot sl r = (emit (levelOf sl.shape sl.scale r.draw.1) (afterPass2 sl).slot, r.draw.2))
    ∨ (forcedZero (afterPass2 sl).slot = false ∧ muxSelect (shapeSel sl.shape) = .random ∧
        wrapsNow sl = false ∧ tickSlot sl r = (hold (afterPass2 sl).slot, r)) := by
  cases h : forcedZero (afterPass2 sl).slot with
  | true => exact .inl ⟨rfl, tickSlot_forced sl r h⟩
  | false =>
    cases hm : muxSelect (shapeSel sl.shape) with
    | row row => exact .inr (.inl ⟨rfl, row, rfl, tickSlot_row sl r h hm⟩)
    | random =>
      cases hw : wrapsNow sl with
      | true => exact .inr (.inr (.inl ⟨rfl, rfl, rfl, tickSlot_draw sl r h hm hw⟩))
      | false => exact .inr (.inr (.inr ⟨rfl, rfl, rfl, tickSlot_hold sl r h hm hw⟩))
    | unassigned => exact absurd hm (muxSelect_assigned _)

@[simp] theorem emit_fields (v : Byte) :
    emit v sl = { sl with out := v, upd := true } := rfl
@[simp] theorem hold_fields : hold sl = { sl with upd := false } := rfl

/-- Pass 3 writes `out` and `upd` and nothing else of the slot. -/
theorem tickSlot_keeps :
    ∃ o u, (tickSlot sl r).1 = { (afterPass2 sl).slot with out := o, upd := u } := by
  rcases tickSlot_cases sl r with ⟨_, h⟩ | ⟨_, _, _, h⟩ | ⟨_, _, _, h⟩ | ⟨_, _, _, h⟩ <;> rw [h]
  · exact ⟨_, _, rfl⟩
  · exact ⟨_, _, rfl⟩
  · exact ⟨_, _, rfl⟩
  · exact ⟨(afterPass2 sl).slot.out, _, rfl⟩

@[simp] theorem tickSlot_shape : (tickSlot sl r).1.shape = sl.shape := by
  obtain ⟨o, u, h⟩ := tickSlot_keeps sl r; simp [h]
@[simp] theorem tickSlot_phase : (tickSlot sl r).1.phase = sl.phase := by
  obtain ⟨o, u, h⟩ := tickSlot_keeps sl r; simp [h]
@[simp] theorem tickSlot_rate : (tickSlot sl r).1.rate = sl.rate := by
  obtain ⟨o, u, h⟩ := tickSlot_keeps sl r; simp [h]
@[simp] theorem tickSlot_scale : (tickSlot sl r).1.scale = sl.scale := by
  obtain ⟨o, u, h⟩ := tickSlot_keeps sl r; simp [h]
@[simp] theorem tickSlot_trig : (tickSlot sl r).1.trig = sl.trig := by
  obtain ⟨o, u, h⟩ := tickSlot_keeps sl r; simp [h]
@[simp] theorem tickSlot_prevTrig : (tickSlot sl r).1.prevTrig = (gateSlot sl).prevTrig := by
  obtain ⟨o, u, h⟩ := tickSlot_keeps sl r; simp [h]
@[simp] theorem tickSlot_counter : (tickSlot sl r).1.counter = (afterPass2 sl).slot.counter := by
  obtain ⟨o, u, h⟩ := tickSlot_keeps sl r; simp [h]
@[simp] theorem tickSlot_cycleCount : (tickSlot sl r).1.cycleCount = (afterPass2 sl).slot.cycleCount := by
  obtain ⟨o, u, h⟩ := tickSlot_keeps sl r; simp [h]
@[simp] theorem tickSlot_changeEnabled :
    (tickSlot sl r).1.changeEnabled = (afterPass2 sl).slot.changeEnabled := by
  obtain ⟨o, u, h⟩ := tickSlot_keeps sl r; simp [h]

/-- Forced or not can be read from the slot after the TICK: pass 3 leaves what it depends on. -/
@[simp] theorem tickSlot_forcedZero :
    forcedZero (tickSlot sl r).1 = forcedZero (afterPass2 sl).slot := by
  simp [forcedZero]

theorem asksDraw_eq :
    asksDraw sl = (!forcedZero (afterPass2 sl).slot
      && decide (muxSelect (shapeSel sl.shape) = .random) && wrapsNow sl) := by
  simp [asksDraw, afterPass2_wrapped]

/-- A slot takes one draw if it asks for one, else none. -/
theorem tickSlot_random :
    (tickSlot sl r).2 = if asksDraw sl then r.draw.2 else r := by
  rw [asksDraw_eq]
  rcases tickSlot_cases sl r with ⟨h, e⟩ | ⟨h, row, hm, e⟩ | ⟨h, hm, hw, e⟩ | ⟨h, hm, hw, e⟩ <;>
    simp [*]

end Pass3

/-! ## The whole command -/

section Whole

variable (s : State)

theorem State.drawsBefore_succ (i : Nat) :
    s.drawsBefore (i + 1) = s.drawsBefore i + (if asksDraw (s.slot i) then 1 else 0) := by
  unfold State.drawsBefore
  rw [List.range_succ, List.filter_append, List.length_append]
  congr 1
  by_cases h : asksDraw (s.slot i) <;> simp [h]

/-- The passes fused per slot. -/
theorem execTick_fused :
    execTick s = .next ((s.withSlots (s.slots.thread tickSlot s.random).1).withRandom
      (s.slots.thread tickSlot s.random).2) := by
  unfold execTick
  simp only [Bank.map_map, Bank.thread_map]
  rfl

/-- What TICK does, in full: every slot is run in the random source as the draws of the slots before it
leave it, and nothing else of the state changes. -/
theorem execTick_spec :
    ∃ t, execTick s = .next t ∧ t.numLeds = s.numLeds ∧ t.rsp = s.rsp ∧ t.inputs = s.inputs
      ∧ t.random = s.random.afterDraws (s.drawsBefore s.numLeds)
      ∧ ∀ i, i < s.numLeds →
          t.slot i = (tickSlot (s.slot i) (s.random.afterDraws (s.drawsBefore i))).1 := by
  have hs := Bank.thread_spec tickSlot s.slots (fun i => s.random.afterDraws (s.drawsBefore i))
    fun i _ => by
      rw [tickSlot_random, State.drawsBefore_succ]
      by_cases h : asksDraw (s.slot i)
      · rw [if_pos h, if_pos (show asksDraw (s.slots.get i) = true from h)]; rfl
      · rw [if_neg h, if_neg (show ¬asksDraw (s.slots.get i) = true from h)]; rfl
  exact ⟨_, execTick_fused s, Bank.size_thread _ _ _, rfl, rfl, hs.2, hs.1⟩

end Whole

end Sys2Proof.Machine
end

