-- ==== Sys2Proof/Laws/Safety.lean ====
section
/-! SUPPORT. The conditions the statements use, each tied to the function of the machine that decides it. -/

namespace Sys2Proof.Machine

section Slots

variable (sl : Slot)

theorem trigHigh_iff : trigHigh sl = true ↔ 512 ≤ sl.trig.toNat := by
  unfold trigHigh
  exact decide_eq_true_iff

theorem risingEdge_iff : risingEdge sl = true ↔ sl.rising := by
  unfold risingEdge Slot.rising
  rw [Bool.and_eq_true, trigHigh_iff, decide_eq_true_iff]
  exact Iff.rfl

/-- Pass 1 leaves `changeEnabled` set exactly where the slot is enabled. -/
theorem gateSlot_enabled_iff : (gateSlot sl).changeEnabled = true ↔ sl.enabled := by
  by_cases h : trigMode sl.shape = .oneshot
  · simp [gateSlot_oneshot sl h, Slot.enabled, h, risingEdge_iff]
  · simp [gateSlot_gate sl h, Slot.enabled, h, trigHigh_iff]

theorem sumWraps_iff : Config.CYCLE ≤ advancedSum sl ↔ sl.sumWraps := Iff.rfl

theorem wrapsNow_iff : wrapsNow sl = true ↔ sl.wraps := by
  simp [wrapsNow, Slot.wraps, gateSlot_enabled_iff, sumWraps_iff]

theorem lastCycle_iff : lastCycle sl = true ↔ sl.endsPattern := by
  simp [lastCycle, Slot.endsPattern]

theorem forcedZero_iff : forcedZero sl = true ↔ sl.isForced := by
  simp [forcedZero, Slot.isForced, shapeFlag, Config.F_ONESHOT, Config.F_GATEOUT, Config.shapeLayout,
    or_assoc, and_assoc]

theorem trigMode_oneshot_iff (shape : Byte) : trigMode shape = .oneshot ↔ shape.getLsbD 7 = true := by
  unfold trigMode shapeFlag
  split
  · simp_all [Config.F_ONESHOT, Config.shapeLayout]
  · split <;> simp_all [Config.F_ONESHOT, Config.shapeLayout]

theorem trigMode_gateout_iff (shape : Byte) :
    trigMode shape = .gateout ↔ shape.getLsbD 7 = false ∧ shape.getLsbD 6 = true := by
  unfold trigMode shapeFlag
  split
  · simp_all [Config.F_ONESHOT, Config.shapeLayout]
  · split <;> simp_all [Config.F_ONESHOT, Config.F_GATEOUT, Config.shapeLayout]

theorem trigMode_gatechange_iff (shape : Byte) :
    trigMode shape = .gatechange ↔ shape.getLsbD 7 = false ∧ shape.getLsbD 6 = false := by
  unfold trigMode shapeFlag
  split
  · simp_all [Config.F_ONESHOT, Config.shapeLayout]
  · split <;> simp_all [Config.F_ONESHOT, Config.F_GATEOUT, Config.shapeLayout]

/-- `missLen` is at most 3. -/
theorem missLen_le (shape : Byte) : missLen shape ≤ 3 := by
  unfold missLen
  cases shapeFlag shape Config.F_MISS2 <;> cases shapeFlag shape Config.F_MISS1 <;> decide

theorem muxSelect_random_iff (sel : Sel) : muxSelect sel = .random ↔ sel = 6 := by
  revert sel; decide

theorem selectsRandom_iff : muxSelect (shapeSel sl.shape) = .random ↔ sl.selectsRandom :=
  muxSelect_random_iff _

theorem asksDraw_iff (r : RandomPort) :
    asksDraw sl = true ↔ ¬(tickSlot sl r).1.isForced ∧ sl.selectsRandom ∧ sl.wraps := by
  rw [asksDraw_eq, ← forcedZero_iff, tickSlot_forcedZero]
  simp [selectsRandom_iff, wrapsNow_iff, and_assoc]

end Slots

section States

variable (s : State)

theorem State.drawsAt_iff (i : Nat) : s.drawsAt i ↔ asksDraw (s.slot i) = true := by
  unfold State.drawsAt
  rw [State.drawsBefore_succ]
  cases asksDraw (s.slot i) <;> simp

theorem State.noDrawAt_iff (i : Nat) : s.noDrawAt i ↔ asksDraw (s.slot i) = false := by
  unfold State.noDrawAt
  rw [State.drawsBefore_succ]
  cases asksDraw (s.slot i) <;> simp

end States

end Sys2Proof.Machine
end

