-- ==== Sys2Proof/Tests/Slice0.lean ====
section
/-! SUPPORT. The model's own tests. Expected results come from spec/95_test_vectors.md or from the examples of
the rules, as each comment says; the witnesses at the end show that the hypotheses of the statements can be met. -/

namespace Sys2Proof.Tests

open Sys2Proof.Machine

/-! ## Helpers -/

/-- A block of the given slots. -/
def block (first : Slot) (rest : List Slot) : State :=
  { slots := { first := first, rest := rest }, rsp := none, random := { answers := [], requests := 0 }, inputs := [] }

/-- A block of four slots as reset. -/
def four : State := State.resetOf 3

/-- A slot of the next state. -/
def after (o : Host.Outcome State Fault Refusal) (i : Nat) : Option Slot :=
  match o with
  | .next t => some (t.slot i)
  | .fault _ => none
  | .refused _ => none

/-- The response channel of the next state. -/
def answered (o : Host.Outcome State Fault Refusal) : Option PatWord :=
  match o with
  | .next t => t.rsp
  | .fault _ => none
  | .refused _ => none

/-- The queued answers left in the next state. -/
def answersLeft (o : Host.Outcome State Fault Refusal) : Option (List Config.Draw) :=
  match o with
  | .next t => some t.random.answers
  | .fault _ => none
  | .refused _ => none

/-! ## Well-formedness and layout -/

/-- The check refuses the two pseudo names. -/
theorem test_pseudo_names_are_not_port_commands :
    (Instr.ldpat 3 0xFF 0xAA 0xFF 0xFF).wellFormed = false ∧ (Instr.encpat 0).wellFormed = false
      ∧ (Instr.setpat 3 0xFF 0xFFFF).wellFormed = true := by decide

/-- The default layout is one the spec admits; a layout with a code or a bit used twice is not. -/
theorem test_shape_layout_is_valid :
    Config.shapeLayout.valid = true
      ∧ { Config.shapeLayout with selOn := 6 }.valid = false
      ∧ { Config.shapeLayout with fMiss2 := 4 }.valid = false := by decide

/-- Parameters out of range build nothing (R7). -/
theorem test_no_block_of_zero_leds :
    State.construct { maxLeds := 16, numLedsReq := 0 } = none
      ∧ State.construct { maxLeds := 257, numLedsReq := 3 } = none
      ∧ (State.construct { maxLeds := 2, numLedsReq := 300 }).map State.numLeds = some 2
      ∧ State.construct Config.defaultParams = some State.reset := by decide

/-! ## Decoding: words written out from the encodings of R81, R82, R89 (V1, V2, P0 to P3) -/

theorem test_decode_nop : decode 0x000000000000 = .nop ∧ decode 0x0FFFFFFFFFFF = .nop := by decide

theorem test_decode_setrate :
    decode 0x100200000200 = .setrate 2 512 ∧ decode 0x1000FFFFFFFF = .setrate 0 1023
      ∧ decode 0x100000000400 = .setrate 0 0 := by decide

theorem test_decode_setscale : decode 0x20FF000003FC = .setscale 255 1020 := by decide

theorem test_decode_settrig :
    decode 0x3001000001FF = .settrig 1 511 ∧ decode 0x3F0100000600 = .settrig 1 512 := by decide

theorem test_decode_setpat :
    decode 0x40064A000BE8 = .setpat 6 0x4A 3048 ∧ decode 0x4003FFAAFFFF = .setpat 3 0xFF 0xFFFF := by decide

theorem test_decode_rdpat : decode 0x50FE00000000 = .rdpat 254 := by decide

theorem test_decode_tick : decode 0x600000000000 = .tick := by decide

theorem test_decode_reserved :
    decode 0x7000FFFFFFFF = .reserved7 ∧ decode 0x800000000000 = .reserved8
      ∧ decode 0x900000000000 = .reserved9 ∧ decode 0xA00000000000 = .reservedA
      ∧ decode 0xB00000000000 = .reservedB ∧ decode 0xC00000000000 = .reservedC
      ∧ decode 0xD00000000000 = .reservedD ∧ decode 0xE00000000000 = .reservedE
      ∧ decode 0xF00000000000 = .reservedF := by decide

/-- The example of R126: LDPAT 0, 0x13, 0x00, 0x05, 0xDC is SETPAT 0, 0x13, 1500. -/
theorem test_encode_ldpat :
    encode (.ldpat 0 0x13 0x00 0x05 0xDC) = 0x4000130005DC
      ∧ decode (encode (.ldpat 0 0x13 0x00 0x05 0xDC)) = .setpat 0 0x13 1500
      ∧ encode (.ldpat 3 0xFF 0xAA 0xFF 0xFF) = 0x4003FFAAFFFF := by decide

theorem test_encode_encpat : encode (.encpat 3) = 0x500300000000 := by decide

/-- A written phase of 0xF800 is a canonical phase of 0, and LDPAT's byte 1 is ignored (R84, R91, R126). -/
theorem test_canonical :
    encodeCanonical (decode 0x40000000F800) = 0x400000000000
      ∧ encode (decode 0x40000000F800) = 0x40000000F800
      ∧ encodeCanonical (.ldpat 3 0xFF 0xAA 0xFF 0xFF) = 0x4003FF0007FF
      ∧ (Instr.setpat 0 0 2048).canonical = false := by decide

theorem test_decodeTableWord :
    decodeTableWord 48 0x3002000003FF = some (.settrig 2 1023) ∧ decodeTableWord 8 0 = some .nop
      ∧ decodeTableWord 64 0 = none := by decide

/-! ## Control and pattern commands (V1, V2) -/

theorem test_nop : exec .nop four = .next four := rfl

/-- `SETRATE 0, 4` stores 1, `SETRATE 0, 3` stores 0. -/
theorem test_setrate :
    (after (exec (.setrate 0 4) four) 0).map Slot.rate = some 1
      ∧ (after (exec (.setrate 0 3) four) 0).map Slot.rate = some 0
      ∧ (after (exec (.setrate 0 1023) four) 0).map Slot.rate = some 255 := by decide

/-- `SETSCALE 7, 512` and `SETSCALE 255, 1020` reach slot 3 of four; with six slots, 7 reaches 1 and 255
reaches 3. -/
theorem test_setscale :
    (after (exec (.setscale 7 512) four) 3).map Slot.scale = some 128
      ∧ (after (exec (.setscale 255 1020) four) 3).map Slot.scale = some 255
      ∧ (State.resetOf 5).idx 7 = 1 ∧ (State.resetOf 5).idx 255 = 3 := by decide

theorem test_settrig :
    (after (exec (.settrig 1 511) four) 1).map Slot.trig = some 511
      ∧ (after (exec (.settrig 1 511) four) 0).map Slot.trig = some 0 := by decide

/-- The running slot of V2. -/
def running : Slot :=
  { Slot.reset with
    counter := 1300, cycleCount := 1, changeEnabled := true, out := 162
    rate := 100, trig := 1023, prevTrig := 37, upd := true }

/-- SETPAT in the middle of a run (V2), and the reductions of the phase (V2). -/
theorem test_setpat :
    after (exec (.setpat 0 0x02 5) (block running [])) 0
        = some { running with shape := 0x02, phase := 5, counter := 5, cycleCount := 0, changeEnabled := false }
      ∧ (after (exec (.setpat 3 0x13 2048) four) 3).map Slot.phase = some 0
      ∧ (after (exec (.setpat 3 0x13 65535) four) 3).map Slot.phase = some 2047 := by decide

/-- `RDPAT 3` after `SETPAT 3, 0x13, 1500` answers 0x130005DC; after reset it answers 0. -/
theorem test_rdpat :
    answered (exec (.rdpat 3) (block Slot.reset
        [Slot.reset, Slot.reset, { Slot.reset with shape := 0x13, phase := 1500 }])) = some 0x130005DC
      ∧ answered (exec (.rdpat 0) four) = some 0 := by decide

theorem test_ldpat :
    after (exec (.ldpat 3 0xFF 0xAA 0xFF 0xFF) four) 3
      = some { Slot.reset with shape := 0xFF, phase := 2047, counter := 2047 } := by decide

theorem test_encpat :
    answered (exec (.encpat 2) (block Slot.reset [Slot.reset, { Slot.reset with shape := 0x4A, phase := 1000 }]))
      = some 0x4A0003E8 := by decide

/-! ## TICK -/

/-- Pass 1 (V3): shape, trig, prevTrig, changeEnabled, and what the last two become. -/
def pass1Row (shape : Byte) (trig prev : Ctrl) (ce : Bool) (ce' : Bool) (prev' : Ctrl) : Bool :=
  let sl := gateSlot { Slot.reset with shape := shape, trig := trig, prevTrig := prev, changeEnabled := ce }
  sl.changeEnabled == ce' && sl.prevTrig == prev'

theorem test_pass1_V3 :
    pass1Row 0x80 600 0 false true 600 && pass1Row 0x80 512 511 false true 512
      && pass1Row 0x80 511 0 false false 511 && pass1Row 0x80 600 512 false false 600
      && pass1Row 0x80 0 600 true true 0 && pass1Row 0x80 1023 0 true true 1023
      && pass1Row 0xC0 600 0 false true 600 && pass1Row 0x00 512 77 false true 77
      && pass1Row 0x00 511 77 true false 77 && pass1Row 0x40 1023 900 false true 900 = true := by decide

/-- Pass 2 (V4), enabled: shape, counter, rate, cycleCount, and counter, wrapped, cycleCount, changeEnabled
afterwards. -/
def pass2Row (shape : Byte) (c : Phase) (r : Byte) (cc : BitVec 2) (c' : Phase) (w : Bool) (cc' : BitVec 2)
    (ce' : Bool) : Bool :=
  let l := pass2 (Lane.start
    { Slot.reset with shape := shape, counter := c, rate := r, cycleCount := cc, changeEnabled := true })
  l.slot.counter == c' && l.wrapped == w && l.slot.cycleCount == cc' && l.slot.changeEnabled == ce'

theorem test_pass2_V4 :
    pass2Row 0x00 1920 127 0 2047 false 0 true && pass2Row 0x00 1920 128 0 0 true 0 true
      && pass2Row 0x00 2047 255 0 254 true 0 true && pass2Row 0x00 2047 0 0 2047 false 0 true
      && pass2Row 0x00 2047 1 0 0 true 0 true && pass2Row 0x80 2040 255 0 247 true 0 false
      && pass2Row 0x10 2040 255 0 247 true 1 true && pass2Row 0x10 2040 255 1 247 true 0 true
      && pass2Row 0x90 2040 255 0 247 true 1 true && pass2Row 0x90 2040 255 1 247 true 0 false
      && pass2Row 0x20 2040 255 0 247 true 1 true && pass2Row 0x20 2040 255 1 247 true 2 true
      && pass2Row 0x20 2040 255 2 247 true 0 true && pass2Row 0x30 2040 255 2 247 true 3 true
      && pass2Row 0x30 2040 255 3 247 true 0 true && pass2Row 0x10 100 255 1 355 false 1 true = true := by decide

/-- The scaler, inversion and floor (V6): base, scale, level without and with INVERT. -/
def levelRow (base scale plain inv : Byte) : Bool :=
  levelOf 0x00 scale base == plain && levelOf 0x08 scale base == inv

theorem test_level_V6 :
    levelRow 0 0 1 255 && levelRow 0 255 1 255 && levelRow 1 255 1 255 && levelRow 2 128 1 254
      && levelRow 2 127 1 255 && levelRow 100 3 1 254 && levelRow 16 255 15 240 && levelRow 128 128 64 191
      && levelRow 200 100 78 177 && levelRow 255 128 127 128 && levelRow 225 255 224 31
      && levelRow 254 255 253 2 && levelRow 255 255 254 1 && levelRow 255 1 1 255 && levelRow 255 0 1 255
      = true := by decide

/-- Forced zeros (V7): shape, changeEnabled, cycleCount, forced. -/
def forcedRow (shape : Byte) (ce : Bool) (cc : BitVec 2) (f : Bool) : Bool :=
  forcedZero { Slot.reset with shape := shape, changeEnabled := ce, cycleCount := cc } == f

theorem test_forced_V7 :
    forcedRow 0x8F false 0 true && forcedRow 0x87 true 0 false && forcedRow 0x43 false 0 true
      && forcedRow 0x03 false 0 false && forcedRow 0x02 false 0 false && forcedRow 0x13 true 1 true
      && forcedRow 0x13 false 1 true && forcedRow 0xC7 false 0 true && forcedRow 0x46 false 0 true
      && forcedRow 0x00 false 0 false = true := by decide

/-- Samples of the ROM (V5). -/
theorem test_rom_V5 :
    [0, 7, 8, 409, 1023, 1024, 2039, 2040, 2047].map (fun c => rom .saw c) = [0, 0, 1, 51, 127, 128, 254, 255, 255]
      ∧ [0, 7, 409, 1023, 1024, 1027, 1028, 1088, 2040, 2047].map (fun c => rom .triangle c)
          = [0, 1, 102, 255, 255, 255, 254, 239, 1, 0]
      ∧ [0, 1023, 1024, 2047].map (fun c => rom .square c) = [255, 255, 0, 0]
      ∧ [0, 409, 410, 2047].map (fun c => rom .pulse c) = [255, 255, 0, 0]
      ∧ [63, 64, 409, 959, 960, 1024, 1088, 1983, 1984].map (fun c => rom .spike c)
          = [0, 1, 36, 196, 225, 225, 196, 1, 0] := by decide

/-- The sum of a row (R186). -/
def rowSum (r : RomRow) : Nat := ((List.range 2048).map fun c => (rom r (BitVec.ofNat 11 c)).toNat).sum

/-- One bit of the reflected CRC-32 (R186). -/
def crcBit (x : Nat) : Nat := if x % 2 = 1 then (x / 2) ^^^ 0xEDB88320 else x / 2

/-- One byte of it. -/
def crcByte (x b : Nat) : Nat :=
  crcBit (crcBit (crcBit (crcBit (crcBit (crcBit (crcBit (crcBit (x ^^^ b))))))))

/-- The CRC-32 of a row's 2048 bytes in order (R186). -/
def rowCrc (r : RomRow) : Nat :=
  (List.range 2048).foldl (fun x c => crcByte x (rom r (BitVec.ofNat 11 c)).toNat) 0xFFFFFFFF ^^^ 0xFFFFFFFF

set_option maxRecDepth 20000 in
/-- The check values of R186. -/
theorem test_rom_sums :
    [RomRow.off, .saw, .triangle, .square, .pulse, .spike, .on].map rowSum
      = [0, 261120, 261120, 261120, 104550, 158720, 522240] := by decide +kernel

set_option maxRecDepth 20000 in
theorem test_rom_crc_saw : rowCrc .saw = 0xAEB7FA95 := by decide +kernel
set_option maxRecDepth 20000 in
theorem test_rom_crc_triangle : rowCrc .triangle = 0xDE7CDC1E := by decide +kernel
set_option maxRecDepth 20000 in
theorem test_rom_crc_spike : rowCrc .spike = 0x889F8087 := by decide +kernel

/-- The slot of P2: one-shot SQUARE with one miss cycle, its trigger held high, at a counter, a miss count and
an enable. -/
def shot (c : Phase) (cc : BitVec 2) (ce : Bool) : Slot :=
  { Slot.reset with
    shape := 0x93, rate := 255, scale := 255, trig := 600, prevTrig := 600
    counter := c, cycleCount := cc, changeEnabled := ce }

/-- P2 at t17: the wrap that ends the miss cycle ends the shot; the slot is dark and keeps the overshoot. -/
theorem test_tick_shot_ends :
    after (exec .tick (block (shot 2032 1 true) [])) 0
      = some { shot 239 0 false with out := 0, upd := true } := by decide

/-- P3 at t0 (inverted TRIANGLE, 137) and P4 at t10 (the draw 200 gives 199, and is taken off the queue),
together in one TICK of two slots. -/
def p3p4 : State :=
  { slots :=
      { first :=
          { Slot.reset with
            shape := 0x4A, phase := 1000, counter := 1000, rate := 100, scale := 128, trig := 512 }
        rest :=
          [{ Slot.reset with
             shape := 0x16, phase := 1536, counter := 2038, rate := 255, scale := 255, trig := 1023
             cycleCount := 1, changeEnabled := true }] }
    rsp := none
    random := { answers := [200, 0], requests := 0 }
    inputs := [] }

theorem test_tick_inverts_and_draws :
    (after (exec .tick p3p4) 0).map (fun sl => (sl.counter, sl.out, sl.upd)) = some (1100, 137, true)
      ∧ (after (exec .tick p3p4) 1).map (fun sl => (sl.counter, sl.cycleCount, sl.out, sl.upd))
          = some (245, 0, 199, true)
      ∧ answersLeft (exec .tick p3p4) = some [0] := by decide

/-- P0: the first TICK after reset, given as the word the host offers. -/
theorem test_step_first_tick :
    after (step (State.reset.withFetchWord 48 0x600000000000)) 3
      = some { Slot.reset with out := 1, upd := true } := by decide

/-- The sink's calls after P0, and none for a slot whose `upd` is 0 (R214). -/
theorem test_emissions :
    (block { Slot.reset with out := 9, upd := true } [Slot.reset, { Slot.reset with out := 1, upd := true }]).emissions
      = [(0, 9), (2, 1)] := by decide

/-! ## Reserved opcodes -/

theorem test_reserved : exec .reserved7 four = .next four ∧ exec .reservedF four = .next four := ⟨rfl, rfl⟩

/-! ## The assembler (R89, R90): lines and words of P3 and V2 -/

theorem test_assembler_words :
    assembleProgram
      ["SETPAT 6, TRIANGLE+INVERT+GATEOUT, 3048 ; phase 1000".toList, "SETRATE  2, 400".toList, "TICK *2".toList,
        "; nothing".toList, "RDPAT 0xFE".toList, "LDPAT 3, 0xFF, 0xAA, 0xFF, 0xFF".toList, "NOP".toList]
      = .ok [0x40064A000BE8, 0x100200000190, 0x600000000000, 0x600000000000, 0x50FE00000000, 0x4003FFAAFFFF,
          0x000000000000] := by decide +kernel

/-- Each check of the assembler refuses an ill-formed line. -/
theorem test_assembler_refuses :
    assembleLine "SETRATE 256, 0".toList = .error .outOfRange
      ∧ assembleLine "SETTRIG 0, 1024".toList = .error .outOfRange
      ∧ assembleLine "SETPAT 0, 256, 0".toList = .error .outOfRange
      ∧ assembleLine "SETPAT 0, SAW, 65536".toList = .error .outOfRange
      ∧ assembleLine "SETPAT 0, SAW+ON, 0".toList = .error .twoKinds
      ∧ assembleLine "SETPAT 0, HUMP, 0".toList = .error .unknownName
      ∧ assembleLine "RDPAT 12a".toList = .error .badNumber
      ∧ assembleLine "NOP 1".toList = .error .badLine := by decide +kernel

/-! ## Witnesses: the hypotheses of each statement, met together -/

/-- A slot of a shape, at a counter and rate, with a trigger, a previous trigger, a miss count and an enable. -/
def slotAt (shape : Byte) (c : Phase) (r : Byte) (trig prev : Ctrl) (cc : BitVec 2) (ce : Bool) : Slot :=
  { Slot.reset with
    shape := shape, counter := c, rate := r, trig := trig, prevTrig := prev, cycleCount := cc
    changeEnabled := ce, scale := 255 }

theorem witness_NopLeavesEveryState : (0x0F12FFFFFFFF : Cmd).extractLsb' 44 4 = 0#4 := by decide

theorem witness_ReservedOpcodesChangeNothing :
    Instr.reservedF ∈ [Instr.reserved7, .reserved8, .reserved9, .reservedA, .reservedB, .reservedC, .reservedD,
        .reservedE, .reservedF]
      ∧ 7 ≤ ((0x7000FFFFFFFF : Cmd).extractLsb' 44 4).toNat := by decide

theorem witness_SetrateStoresQuarterValue : (0x1FFFFFFFFFFF : Cmd).extractLsb' 44 4 = 1#4 := by decide
theorem witness_SetscaleStoresQuarterValue : (0x2000000003FF : Cmd).extractLsb' 44 4 = 2#4 := by decide
theorem witness_SettrigStoresValueVerbatim : (0x3F0100000600 : Cmd).extractLsb' 44 4 = 3#4 := by decide
theorem witness_SetpatRestartsTheSlot : (0x4003FFAAFFFF : Cmd).extractLsb' 44 4 = 4#4 := by decide
theorem witness_RdpatAnswersThePatternWord : (0x50FE00000000 : Cmd).extractLsb' 44 4 = 5#4 := by decide

theorem witness_ControlWritesCommute :
    (Instr.setrate 0 1, Instr.setscale 255 1023) ∈
      [(Instr.setrate 0 1, Instr.setscale 255 1023), (.setrate 0 1, .settrig 255 1023),
        (.setscale 0 1, .settrig 255 1023), (.setrate 0 1, .setpat 255 7 65535),
        (.setscale 0 1, .setpat 255 7 65535), (.settrig 0 1, .setpat 255 7 65535)] := by decide

theorem witness_LedIndexWrapsModuloCount :
    (3 : Byte).toNat % four.numLeds = (255 : Byte).toNat % four.numLeds := by decide

theorem witness_TickIsThreePassesOfEverySlot : 3 < four.numLeds := by decide
theorem witness_TickWritesNoConfiguration : 0 < (block running []).numLeds := by decide

theorem witness_OneshotLatchesTheEdge :
    0 < (block (slotAt 0x81 0 128 512 511 0 false) []).numLeds
      ∧ trigMode ((block (slotAt 0x81 0 128 512 511 0 false) []).slot 0).shape = .oneshot := by decide

theorem witness_GateFollowsTheTriggerLevel :
    trigMode (slotAt 0x41 0 128 512 0 0 false).shape ≠ .oneshot
      ∧ trigMode (slotAt 0x01 0 128 511 0 0 true).shape ≠ .oneshot := by decide

/-- A sum of 2047 does not wrap, a sum of 2048 does, and a closed gate does not advance. -/
theorem witness_CounterAdvancesAndKeepsOvershoot :
    ((slotAt 0x01 1920 127 512 0 0 false).enabled ∧ ¬(slotAt 0x01 1920 127 512 0 0 false).sumWraps)
      ∧ ((slotAt 0x01 1920 128 512 0 0 false).enabled ∧ (slotAt 0x01 1920 128 512 0 0 false).sumWraps)
      ∧ ¬(slotAt 0x01 1920 128 511 0 0 true).enabled := by
  simp only [Slot.enabled, Slot.rising, Slot.sumWraps]; decide

theorem witness_MissCyclesAreCountedAtWraps :
    ((slotAt 0x90 2047 1 0 0 1 true).wraps ∧ (slotAt 0x90 2047 1 0 0 1 true).endsPattern)
      ∧ ((slotAt 0x30 2047 1 512 0 2 true).wraps
          ∧ (slotAt 0x30 2047 1 512 0 2 true).missBounded ∧ ¬(slotAt 0x30 2047 1 512 0 2 true).endsPattern)
      ∧ ¬(slotAt 0x10 2046 1 512 0 1 true).wraps := by
  simp only [Slot.wraps, Slot.enabled, Slot.rising, Slot.sumWraps, Slot.endsPattern,
    Slot.missBounded]; decide

/-- One slot for each of the eight rows, in their order. -/
theorem witness_OneshotStateMachine :
    (∀ sl ∈ [slotAt 0x81 0 128 511 0 0 false, slotAt 0x81 2047 0 512 511 0 false, slotAt 0x81 2047 1 512 511 0 false,
        slotAt 0x91 2047 1 512 511 0 false, slotAt 0x81 0 128 0 0 0 true, slotAt 0xB1 2047 1 0 0 2 true,
        slotAt 0x91 2046 1 0 0 1 true, slotAt 0xB1 2047 1 0 0 3 true],
      trigMode sl.shape = .oneshot ∧ sl.idleAtRest)
    ∧ ¬(slotAt 0x81 0 128 511 0 0 false).rising
    ∧ ((slotAt 0x81 2047 0 512 511 0 false).rising ∧ ¬(slotAt 0x81 2047 0 512 511 0 false).sumWraps)
    ∧ ((slotAt 0x81 2047 1 512 511 0 false).rising ∧ (slotAt 0x81 2047 1 512 511 0 false).sumWraps
        ∧ missLen (slotAt 0x81 2047 1 512 511 0 false).shape = 0)
    ∧ ((slotAt 0x91 2047 1 512 511 0 false).rising ∧ (slotAt 0x91 2047 1 512 511 0 false).sumWraps
        ∧ 0 < missLen (slotAt 0x91 2047 1 512 511 0 false).shape)
    ∧ ¬(slotAt 0x81 0 128 0 0 0 true).sumWraps
    ∧ ((slotAt 0xB1 2047 1 0 0 2 true).cycleCount.toNat < missLen (slotAt 0xB1 2047 1 0 0 2 true).shape
        ∧ (slotAt 0xB1 2047 1 0 0 2 true).sumWraps)
    ∧ ((slotAt 0x91 2046 1 0 0 1 true).cycleCount ≠ 0 ∧ ¬(slotAt 0x91 2046 1 0 0 1 true).sumWraps)
    ∧ ((slotAt 0xB1 2047 1 0 0 3 true).cycleCount.toNat = missLen (slotAt 0xB1 2047 1 0 0 3 true).shape
        ∧ (slotAt 0xB1 2047 1 0 0 3 true).sumWraps) := by
  simp only [Slot.idleAtRest, Slot.rising, Slot.sumWraps]; decide

theorem witness_ClosedGateFreezesOrBlanks :
    ((slotAt 0x02 512 9 511 0 0 true).trig.toNat < 512
        ∧ trigMode (slotAt 0x02 512 9 511 0 0 true).shape = .gatechange
        ∧ (slotAt 0x02 512 9 511 0 0 true).cycleCount = 0)
      ∧ (trigMode (slotAt 0x13 512 9 511 0 1 true).shape = .gatechange
        ∧ (slotAt 0x13 512 9 511 0 1 true).cycleCount ≠ 0)
      ∧ trigMode (slotAt 0x43 512 9 511 0 0 true).shape = .gateout := by decide

theorem witness_ForcedZeroBypassesScalerAndDraw :
    ∃ t, exec .tick (block (slotAt 0x8F 0 0 0 0 0 false) []) = .next t ∧ (t.slot 0).isForced :=
  ⟨_, rfl, by unfold Slot.isForced; decide⟩

theorem witness_UnforcedSlotEmitsItsRomSample :
    ∃ t, exec .tick (block (slotAt 0x01 0 128 512 0 0 false) []) = .next t ∧ ¬(t.slot 0).isForced
      ∧ ¬(slotAt 0x01 0 128 512 0 0 false).selectsRandom :=
  ⟨_, rfl, by unfold Slot.isForced Slot.selectsRandom; decide⟩

/-- A block whose one slot is given, with an answer ready. -/
def drawing (sl : Slot) : State := { block sl [] with random := { answers := [200], requests := 0 } }

theorem witness_RandomSlotDrawsOnlyAtItsOwnWrap :
    (∃ t, exec .tick (drawing (slotAt 0x06 2047 1 512 0 0 false)) = .next t ∧ ¬(t.slot 0).isForced
        ∧ (slotAt 0x06 2047 1 512 0 0 false).selectsRandom ∧ (slotAt 0x06 2047 1 512 0 0 false).wraps
        ∧ (drawing (slotAt 0x06 2047 1 512 0 0 false)).drawsAt 0)
      ∧ ∃ t, exec .tick (drawing (slotAt 0x06 2046 1 512 0 0 false)) = .next t ∧ ¬(t.slot 0).isForced
        ∧ (slotAt 0x06 2046 1 512 0 0 false).selectsRandom ∧ ¬(slotAt 0x06 2046 1 512 0 0 false).wraps := by
  refine ⟨⟨_, rfl, ?_⟩, _, rfl, ?_⟩ <;>
    simp only [Slot.isForced, Slot.selectsRandom, Slot.wraps, Slot.enabled, Slot.rising, Slot.sumWraps,
      State.drawsAt] <;> decide

theorem witness_EmissionIsMissedOnlyByRandomWithoutWrap :
    (after (exec .tick (block (slotAt 0x06 2046 1 512 0 0 false) [])) 0).map Slot.upd = some false
      ∧ (after (exec .tick (block (slotAt 0x01 2046 1 512 0 0 false) [])) 0).map Slot.upd = some true := by decide

theorem witness_OnlyForcedSlotsGoDark :
    (after (exec .tick (block (slotAt 0x01 0 0 0 0 0 false) [])) 0).map Slot.upd = some true
      ∧ (slotAt 0x01 0 0 0 0 0 false).shape.getLsbD 3 = false := by decide

/-- Positions on both sides of 410 and of 1024. -/
theorem witness_RomRowsFollowTheirFormulas :
    (409 : Phase).toNat < 410 ∧ 410 ≤ (410 : Phase).toNat ∧ (1023 : Phase).toNat < 1024
      ∧ 1024 ≤ (1024 : Phase).toNat := by decide

theorem witness_LevelIsScaledInvertedFloored :
    (0x07 : Byte).getLsbD 3 = false ∧ (0x08 : Byte).getLsbD 3 = true := by decide

theorem witness_RandomWithOneshotOrMissDraws :
    ((slotAt 0x86 2047 1 512 0 0 false).missBounded ∧ trigMode (slotAt 0x86 2047 1 512 0 0 false).shape = .oneshot)
      ∧ ((slotAt 0x16 2047 1 512 0 1 false).missBounded ∧ 0 < missLen (slotAt 0x16 2047 1 512 0 1 false).shape
        ∧ (drawing (slotAt 0x16 2047 1 512 0 1 false)).drawsAt 0) := by
  simp only [Slot.missBounded, State.drawsAt]; decide

theorem witness_SlotsAreIndependentLanes :
    0 < four.numLeds ∧ 0 < (block Slot.reset [running]).numLeds
      ∧ four.slot 0 = (block Slot.reset [running]).slot 0
      ∧ four.noDrawAt 0
      ∧ (drawing (slotAt 0x06 2047 1 512 0 0 false)).drawOf 0
          = ({ block (slotAt 0x06 2047 1 512 0 0 false) [running] with
                random := { answers := [200, 3], requests := 7 } } : State).drawOf 0 := by
  simp only [State.noDrawAt]; decide

theorem witness_OpenGateRunsAtItsRate :
    trigMode (slotAt 0x01 0 128 512 0 0 false).shape ≠ .oneshot
      ∧ 512 ≤ (slotAt 0x01 0 128 512 0 0 false).trig.toNat := by decide

theorem witness_IdleOneshotWaitsForAnEdge :
    trigMode (slotAt 0x81 0 128 1023 512 0 false).shape = .oneshot
      ∧ (slotAt 0x81 0 128 1023 512 0 false).changeEnabled = false
      ∧ ¬(slotAt 0x81 0 128 1023 512 0 false).rising := by
  simp only [Slot.rising]; decide

/-- A sum of 2047 after one TICK, a sum of 2048 after one, and an edge still to be seen. -/
theorem witness_ShotRunsOneCycleThenStaysDark :
    (∀ sl ∈ [slotAt 0x81 1920 127 0 0 0 true, slotAt 0x81 1920 128 0 0 0 true, slotAt 0x81 0 128 512 511 0 false],
      trigMode sl.shape = .oneshot ∧ missLen sl.shape = 0 ∧ sl.cycleCount = 0
        ∧ (sl.changeEnabled = true ∨ sl.rising))
    ∧ (1920 : Phase).toNat + 1 * (127 : Byte).toNat < 2048
    ∧ 2048 ≤ (1920 : Phase).toNat + 1 * (128 : Byte).toNat := by
  simp only [Slot.rising]; decide

theorem witness_StalePrevTrigDecidesTheFirstShot :
    (0x81 : Byte).getLsbD 7 = true
      ∧ (512 ≤ ((block (slotAt 0x01 256 128 1023 0 0 true) []).addressed 0).trig.toNat
        ∧ ((block (slotAt 0x01 256 128 1023 0 0 true) []).addressed 0).prevTrig.toNat < 512
        ∧ (0 : BitVec 16).toNat % 2048 + ((block (slotAt 0x01 256 128 1023 0 0 true) []).addressed 0).rate.toNat
            < 2048)
      ∧ (512 ≤ ((block (slotAt 0x81 128 128 1023 1023 0 true) []).addressed 0).trig.toNat
        ∧ 512 ≤ ((block (slotAt 0x81 128 128 1023 1023 0 true) []).addressed 0).prevTrig.toNat) := by decide

theorem witness_OnlyListedCommandsWriteARegister :
    ((∀ led v, Instr.tick ≠ .setrate led v) ∧ (∀ led v, Instr.tick ≠ .setscale led v)
        ∧ (∀ led v, Instr.tick ≠ .settrig led v) ∧ (∀ led sh ph, Instr.tick ≠ .setpat led sh ph)
        ∧ ∀ led b0 b1 b2 b3, Instr.tick ≠ .ldpat led b0 b1 b2 b3)
      ∧ Instr.nop ≠ .tick := by
  refine ⟨⟨?_, ?_, ?_, ?_, ?_⟩, by decide⟩ <;> intros <;> exact Instr.noConfusion

theorem witness_OnlyRdpatAnswers :
    (∀ led, Instr.nop ≠ .rdpat led) ∧ (∀ led, Instr.nop ≠ .encpat led) ∧ Instr.nop ≠ .tick := by
  refine ⟨?_, ?_, by decide⟩ <;> intro led h <;> exact Instr.noConfusion h

theorem witness_StepRunsTheOfferedCommand :
    (four.withInputs [.cmd 0x600000000000, .rst]).inputs = .cmd 0x600000000000 :: [.rst]
      ∧ four.inputs = [] := by decide

theorem witness_RstClearsEverySlot :
    ((block running []).withInputs [.rst, .cmd 0]).inputs = .rst :: [.cmd 0] := by decide

theorem witness_ConstructedBlockIsAllZero :
    (1 ≤ (⟨256, 300⟩ : Config.Params).maxLeds ∧ (⟨256, 300⟩ : Config.Params).maxLeds ≤ 256
        ∧ 1 ≤ (⟨256, 300⟩ : Config.Params).numLedsReq)
      ∧ (⟨16, 0⟩ : Config.Params).numLedsReq = 0 := by decide

theorem witness_FirstTickGlowsAtOne : State.construct ⟨16, 3⟩ = some (State.resetOf 2) := by decide

theorem witness_ResetMeetsTheInvariant : State.construct ⟨1, 1⟩ = some (State.resetOf 0) := by decide

theorem witness_StepKeepsTheInvariant :
    (four.withInputs [.cmd 0x600000000000]).Inv
      ∧ ∃ t, step (four.withInputs [.cmd 0x600000000000]) = .next t := by
  refine ⟨⟨?_, ?_, ?_⟩, _, rfl⟩
  · unfold State.sizeOk; decide
  · unfold State.missBounded Slot.missBounded; decide
  · unfold State.idleAtRest Slot.idleAtRest; decide

/-- One slot of each polarity that draws. -/
theorem witness_DrawsKeepTheContract :
    (0 < (drawing (slotAt 0x06 2047 1 512 0 0 false)).numLeds
        ∧ (drawing (slotAt 0x06 2047 1 512 0 0 false)).drawsAt 0)
      ∧ (drawing (slotAt 0x0E 2047 1 512 0 0 false)).drawsAt 0 := by
  simp only [State.drawsAt]; decide

theorem witness_CanonicalWordKeepsTheMeaning :
    canonicalWord 0x40FFFF0007FF = 0x40FFFF0007FF ∧ (Instr.setpat 255 255 2047).canonical = true := by decide

theorem witness_QueuedAnswersAreTakenInOrder : p3p4.random.answers[1]? = some 0 := by decide

theorem witness_DecodeOfEncodeIsTheInstruction : (Instr.setpat 255 255 65535).wellFormed = true := by decide

/-- Words that differ in every bit their opcode ignores. -/
theorem witness_IgnoredBitsHaveNoEffect :
    (0x4FFFFFFFFFFF : Cmd) &&& usedBits (cmdOp 0x4FFFFFFFFFFF) = 0x40FFFF0007FF &&& usedBits (cmdOp 0x4FFFFFFFFFFF)
      ∧ (0x3001000001FF : Cmd) &&& usedBits (cmdOp 0x3001000001FF)
          = 0x3F01FFFFFDFF &&& usedBits (cmdOp 0x3001000001FF)
      ∧ (0x500000000000 : Cmd) &&& usedBits (cmdOp 0x500000000000)
          = 0x5F00FFFFFFFF &&& usedBits (cmdOp 0x500000000000)
      ∧ (0x600000000000 : Cmd) &&& usedBits (cmdOp 0x600000000000)
          = 0x6FFFFFFFFFFF &&& usedBits (cmdOp 0x600000000000) := by decide

/-- The largest operands in range, and each operand just out of it. -/
theorem witness_AssemblerChecksOperandRanges :
    (255 < 256 ∧ 1023 < 1024) ∧ (256 ≤ 256 ∨ 1024 ≤ 0) ∧ (256 ≤ 0 ∨ 1024 ≤ 1024)
      ∧ (255 < 256 ∧ 255 < 256 ∧ 65535 < 65536) ∧ (256 ≤ 0 ∨ 256 ≤ 0 ∨ 65536 ≤ 65536)
      ∧ (256 ≤ 0 ∨ 256 ≤ 0 ∨ 256 ≤ 0 ∨ 256 ≤ 0 ∨ 256 ≤ 256) := by decide

/-- All flags with the last kind make 255, one flag more makes 263; and two kinds are one too many. -/
theorem witness_AssemblerChecksShapeExpressions :
    ([ShapeName.on, .invert, .miss1, .miss2, .gateout, .oneshot].map ShapeName.value).sum = 255
      ∧ ([ShapeName.on, .invert, .miss1, .miss2, .gateout, .oneshot].filter ShapeName.isKind).length ≤ 1
      ∧ 256 ≤ ([ShapeName.on, .invert, .miss1, .miss2, .gateout, .oneshot, .invert].map ShapeName.value).sum
      ∧ ([ShapeName.on, .invert, .miss1, .miss2, .gateout, .oneshot, .invert].filter ShapeName.isKind).length ≤ 1
      ∧ 1 < ([ShapeName.off, .saw].filter ShapeName.isKind).length := by decide

/-- A shape for each mode and each miss length. -/
theorem witness_ShapeBitsGiveMissLenAndMode :
    (0xF0 : Byte).getLsbD 7 = true ∧ (0x40 : Byte).getLsbD 7 = false ∧ (0x40 : Byte).getLsbD 6 = true
      ∧ (0x30 : Byte).getLsbD 5 = true ∧ (0x30 : Byte).getLsbD 4 = true := by decide

/-- The miss lengths and modes of R26 and R27, each bit by itself and together. -/
theorem test_missLen_and_mode :
    [0x00, 0x10, 0x20, 0x30, 0xCF].map (fun sh : Byte => missLen sh) = [0, 1, 2, 3, 0]
      ∧ [0x00, 0x40, 0x80, 0xC0].map (fun sh : Byte => trigMode sh)
          = [.gatechange, .gateout, .oneshot, .oneshot] := by decide

theorem witness_OneshotIgnoresGateout :
    (block (slotAt 0x81 0 128 512 511 0 false) []).drawOf 0 = (block (slotAt 0xC1 0 128 512 511 0 false) []).drawOf 0
      ∧ (slotAt 0x81 0 128 512 511 0 false).shape.getLsbD 7 = true
      ∧ (block (slotAt 0xC1 0 128 512 511 0 false) []).slot 0
          = { (block (slotAt 0x81 0 128 512 511 0 false) []).slot 0 with shape := 0x81 ^^^ 0x40#8 } :=
  ⟨rfl, by decide, by decide⟩

end Sys2Proof.Tests
end

section
/-! Building a block (spec/00_scope.md R7) and what a block just built holds (spec/10_state.md R43). -/

/-! ## The parameters in range -/

namespace Sys2Proof.Config

theorem Params.valid_iff {p : Params} :
    p.valid = true ↔ 1 ≤ p.maxLeds ∧ p.maxLeds ≤ LED_INDEX_SPAN ∧ 1 ≤ p.numLedsReq := by
  simp [Params.valid, and_assoc]

/-- In range, the clamped request is a slot count the LED index reaches (R7). -/
theorem Params.numLeds_range {p : Params} (h : p.valid = true) :
    1 ≤ p.numLeds ∧ p.numLeds ≤ LED_INDEX_SPAN := by
  obtain ⟨hmax, hspan, hreq⟩ := Params.valid_iff.mp h
  exact ⟨Nat.le_min.mpr ⟨hreq, hmax⟩, (Nat.min_le_right _ _).trans hspan⟩

end Sys2Proof.Config

/-! ## The block after reset -/

namespace Sys2Proof.Machine

@[simp] theorem State.numLeds_resetOf (n : Nat) : (State.resetOf n).numLeds = n + 1 := by
  simp [State.numLeds, State.resetOf, Bank.size]

/-- Index 0 is the bank's first entry; every other index is an entry of the replicated rest. -/
@[simp] theorem State.slot_resetOf {n i : Nat} (h : i < (State.resetOf n).numLeds) :
    (State.resetOf n).slot i = Slot.reset := by
  cases i with
  | zero => rfl
  | succ k =>
    have hk : k < n := by simpa using h
    simp [State.slot, State.resetOf, Bank.get, hk]

/-! ## Construction -/

theorem State.construct_eq_some_iff {p : Config.Params} {s : State} :
    State.construct p = some s ↔ p.valid = true ∧ State.resetOf (p.numLeds - 1) = s := by
  simp [State.construct]

theorem State.construct_eq_none_iff {p : Config.Params} : State.construct p = none ↔ p.valid = false := by
  simp [State.construct]

theorem State.numLeds_of_construct {p : Config.Params} {s : State} (h : State.construct p = some s) :
    s.numLeds = p.numLeds := by
  obtain ⟨hv, rfl⟩ := State.construct_eq_some_iff.mp h
  rw [State.numLeds_resetOf, Nat.sub_add_cancel (Config.Params.numLeds_range hv).1]

theorem State.slot_of_construct {p : Config.Params} {s : State} (h : State.construct p = some s) {i : Nat}
    (hi : i < s.numLeds) : s.slot i = Slot.reset := by
  obtain ⟨-, rfl⟩ := State.construct_eq_some_iff.mp h
  exact State.slot_resetOf hi

/-- Settles O40: parameters in range build a block of `Params.numLeds` slots, each `Slot.reset`; a request of 0
is out of range. -/
theorem constructedBlockIsAllZero : Obligations.ConstructedBlockIsAllZero := by
  refine ⟨fun p hmax hspan hreq => ?_, fun p hreq => ?_⟩
  · have hv : p.valid = true := Config.Params.valid_iff.mpr ⟨hmax, hspan, hreq⟩
    have hc : State.construct p = some (State.resetOf (p.numLeds - 1)) :=
      State.construct_eq_some_iff.mpr ⟨hv, rfl⟩
    have hn := State.numLeds_of_construct hc
    have hrange := Config.Params.numLeds_range hv
    rw [← hn] at hrange
    exact ⟨_, hc, hn, hrange.1, hrange.2, fun _ hi => State.slot_of_construct hc hi⟩
  · have hv : ¬ p.valid = true := fun hv => by
      obtain ⟨-, -, hpos⟩ := Config.Params.valid_iff.mp hv
      omega
    exact State.construct_eq_none_iff.mpr (Bool.eq_false_iff.mpr hv)

end Sys2Proof.Machine
end

section
/-! The fields of the shape register (spec/10_state.md R26, R27). -/

namespace Sys2Proof.Machine

/-- R27, on the bits of R25. -/
theorem missLen_eq_bits (shape : Byte) :
    missLen shape = 2 * (shape.getLsbD 5).toNat + (shape.getLsbD 4).toNat := by
  simp [missLen, shapeFlag, Config.F_MISS1, Config.F_MISS2, Config.shapeLayout]

theorem missLen_eq_zero_iff (shape : Byte) :
    missLen shape = 0 ↔ shape.getLsbD 5 = false ∧ shape.getLsbD 4 = false := by
  rw [missLen_eq_bits]
  cases shape.getLsbD 5 <;> cases shape.getLsbD 4 <;> decide

/-- Settles O56: the miss length is the two MISS bits as a number, and each mode is read off bits 7 and 6. -/
theorem shapeBitsGiveMissLenAndMode : Obligations.ShapeBitsGiveMissLenAndMode := by
  refine fun shape => ⟨missLen_eq_bits shape, fun h2 h1 => ?_, missLen_eq_zero_iff shape,
    trigMode_oneshot_iff shape, trigMode_gateout_iff shape, trigMode_gatechange_iff shape⟩
  rw [missLen_eq_bits, h2, h1]
  rfl

end Sys2Proof.Machine
end

section
/-! What one command may do to one slot, said once over every instruction, and with it which command writes which
register (spec/10_state.md R38). -/

namespace Sys2Proof.Machine

/-- `SlotEffect c sl sl'`: a slot `sl` may be `sl'` after the command `c`. A command other than TICK leaves every
slot it does not address; TICK runs every slot. -/
inductive SlotEffect : Instr → Slot → Slot → Prop where
  | keep {c : Instr} (hc : c ≠ .tick) (sl : Slot) : SlotEffect c sl sl
  | setrate (led : Byte) (v : Ctrl) (sl : Slot) :
      SlotEffect (.setrate led v) sl { sl with rate := shiftedCtrl Config.RATE_SHIFT v }
  | setscale (led : Byte) (v : Ctrl) (sl : Slot) :
      SlotEffect (.setscale led v) sl { sl with scale := shiftedCtrl Config.SCALE_SHIFT v }
  | settrig (led : Byte) (v : Ctrl) (sl : Slot) : SlotEffect (.settrig led v) sl { sl with trig := v }
  | setpat (led sh : Byte) (ph : BitVec 16) (sl : Slot) :
      SlotEffect (.setpat led sh ph) sl (setPattern sh ph sl)
  | ldpat (led b0 b1 b2 b3 : Byte) (sl : Slot) :
      SlotEffect (.ldpat led b0 b1 b2 b3) sl (setPattern b0 (phaseOfBytes b2 b3) sl)
  | tick (sl : Slot) (r : RandomPort) : SlotEffect .tick sl (tickSlot sl r).1

/-- Every slot of `t` is a `SlotEffect` of `c` on the same slot of `s`. -/
def State.SlotsAfter (c : Instr) (s t : State) : Prop :=
  t.numLeds = s.numLeds ∧ ∀ i, i < s.numLeds → SlotEffect c (s.slot i) (t.slot i)

section Effects

variable {c : Instr} (s : State)

theorem State.slotsAfter_self (hc : c ≠ .tick) : s.SlotsAfter c s :=
  ⟨rfl, fun _ _ => .keep hc _⟩

theorem State.slotsAfter_respond (hc : c ≠ .tick) (v : PatWord) : s.SlotsAfter c (s.respond v) :=
  ⟨rfl, fun _ _ => .keep hc _⟩

/-- A write of one slot has an effect of the command on the slot written, and leaves the others. -/
theorem State.slotsAfter_modifySlot (hc : c ≠ .tick) (k : Nat) {f : Slot → Slot}
    (hf : ∀ sl, SlotEffect c sl (f sl)) : s.SlotsAfter c (s.modifySlot k f) := by
  refine ⟨State.numLeds_modifySlot s k f, fun i hi => ?_⟩
  rw [State.slot_modifySlot s hi]
  split
  · exact hf _
  · exact .keep hc _

end Effects

/-- Every command completes, and what it makes of each slot is one of its effects. -/
theorem exec_slotsAfter (c : Instr) (s : State) : ∃ t, exec c s = .next t ∧ s.SlotsAfter c t := by
  cases c with
  | setrate led v => exact ⟨_, rfl, s.slotsAfter_modifySlot (by nofun) _ fun _ => .setrate led v _⟩
  | setscale led v => exact ⟨_, rfl, s.slotsAfter_modifySlot (by nofun) _ fun _ => .setscale led v _⟩
  | settrig led v => exact ⟨_, rfl, s.slotsAfter_modifySlot (by nofun) _ fun _ => .settrig led v _⟩
  | setpat led sh ph => exact ⟨_, rfl, s.slotsAfter_modifySlot (by nofun) _ fun _ => .setpat led sh ph _⟩
  | ldpat led b0 b1 b2 b3 =>
    exact ⟨_, rfl, s.slotsAfter_modifySlot (by nofun) _ fun _ => .ldpat led b0 b1 b2 b3 _⟩
  | rdpat led | encpat led => exact ⟨_, rfl, s.slotsAfter_respond (by nofun) _⟩
  | tick =>
    obtain ⟨t, ht, hn, -, -, -, hslot⟩ := execTick_spec s
    exact ⟨t, ht, hn, fun i hi => hslot i hi ▸ .tick _ _⟩
  | nop | reserved7 | reserved8 | reserved9 | reservedA | reservedB | reservedC | reservedD | reservedE
    | reservedF => exact ⟨s, rfl, s.slotsAfter_self (by nofun)⟩

/-! ## Which command writes which register -/

section Registers

variable {c : Instr} {sl sl' : Slot} (h : SlotEffect c sl sl')

include h

theorem SlotEffect.rate_eq (hc : ∀ led v, c ≠ .setrate led v) : sl'.rate = sl.rate := by
  cases h with
  | setrate led v => exact absurd rfl (hc led v)
  | tick => exact tickSlot_rate _ _
  | _ => rfl

theorem SlotEffect.scale_eq (hc : ∀ led v, c ≠ .setscale led v) : sl'.scale = sl.scale := by
  cases h with
  | setscale led v => exact absurd rfl (hc led v)
  | tick => exact tickSlot_scale _ _
  | _ => rfl

theorem SlotEffect.trig_eq (hc : ∀ led v, c ≠ .settrig led v) : sl'.trig = sl.trig := by
  cases h with
  | settrig led v => exact absurd rfl (hc led v)
  | tick => exact tickSlot_trig _ _
  | _ => rfl

theorem SlotEffect.shape_phase_eq (hset : ∀ led sh ph, c ≠ .setpat led sh ph)
    (hld : ∀ led b0 b1 b2 b3, c ≠ .ldpat led b0 b1 b2 b3) :
    sl'.shape = sl.shape ∧ sl'.phase = sl.phase := by
  cases h with
  | setpat led sh ph => exact absurd rfl (hset led sh ph)
  | ldpat led b0 b1 b2 b3 => exact absurd rfl (hld led b0 b1 b2 b3)
  | tick => exact ⟨tickSlot_shape _ _, tickSlot_phase _ _⟩
  | _ => exact ⟨rfl, rfl⟩

theorem SlotEffect.progress_eq (hset : ∀ led sh ph, c ≠ .setpat led sh ph)
    (hld : ∀ led b0 b1 b2 b3, c ≠ .ldpat led b0 b1 b2 b3) (ht : c ≠ .tick) :
    sl'.counter = sl.counter ∧ sl'.cycleCount = sl.cycleCount ∧ sl'.changeEnabled = sl.changeEnabled := by
  cases h with
  | setpat led sh ph => exact absurd rfl (hset led sh ph)
  | ldpat led b0 b1 b2 b3 => exact absurd rfl (hld led b0 b1 b2 b3)
  | tick => exact absurd rfl ht
  | _ => exact ⟨rfl, rfl, rfl⟩

theorem SlotEffect.output_eq (ht : c ≠ .tick) :
    sl'.prevTrig = sl.prevTrig ∧ sl'.out = sl.out ∧ sl'.upd = sl.upd := by
  cases h with
  | tick => exact absurd rfl ht
  | _ => exact ⟨rfl, rfl, rfl⟩

end Registers

/-- Settles O35: each register is written by no effect of a command that is not listed for it. -/
theorem onlyListedCommandsWriteARegister : Obligations.OnlyListedCommandsWriteARegister := by
  intro c s
  obtain ⟨t, ht, hn, heff⟩ := exec_slotsAfter c s
  exact ⟨t, ht, hn, fun i hi => ⟨(heff i hi).rate_eq, (heff i hi).scale_eq, (heff i hi).trig_eq,
    (heff i hi).shape_phase_eq, (heff i hi).progress_eq, (heff i hi).output_eq⟩⟩

end Sys2Proof.Machine
end

section
/-! The invariant of spec/10_state.md R39 b and spec/42_tick_gate_advance.md R150: reset has it, and every step
keeps it, slot by slot. -/

namespace Sys2Proof.Machine

/-- The invariant of one slot: `State.Inv` asks it of every slot. -/
def Slot.Inv (sl : Slot) : Prop := sl.missBounded ∧ sl.idleAtRest

theorem State.inv_iff (s : State) : s.Inv ↔ s.sizeOk ∧ ∀ i, i < s.numLeds → (s.slot i).Inv := by
  constructor
  · rintro ⟨hsize, hmiss, hidle⟩
    exact ⟨hsize, fun i hi => ⟨hmiss i hi, hidle i hi⟩⟩
  · rintro ⟨hsize, hslot⟩
    exact ⟨hsize, fun i hi => (hslot i hi).1, fun i hi => (hslot i hi).2⟩

/-! ## One slot -/

/-- A slot that has counted no cycle meets it, whatever its shape. -/
theorem Slot.inv_of_cycleCount_zero {sl : Slot} (h : sl.cycleCount = 0) : sl.Inv := by
  refine ⟨?_, fun _ _ => h⟩
  rw [Slot.missBounded, h]
  exact Nat.zero_le _

theorem Slot.inv_reset : Slot.reset.Inv := Slot.inv_of_cycleCount_zero rfl

/-- The cycle count goes up by one, and only where it is below the miss length. -/
theorem Slot.missBounded_tickSlot {sl : Slot} (h : sl.missBounded) (r : RandomPort) :
    (tickSlot sl r).1.missBounded := by
  unfold Slot.missBounded at *
  rw [tickSlot_cycleCount, afterPass2_cycleCount, tickSlot_shape]
  split
  · split
    · exact Nat.zero_le _
    · have hmore : ¬ sl.endsPattern := by rwa [← lastCycle_iff]
      have hlt : sl.cycleCount.toNat < missLen sl.shape :=
        Nat.lt_of_le_of_ne h fun e => hmore (.inr e)
      rw [BitVec.toNat_add]
      exact (Nat.mod_le _ _).trans hlt
  · exact h

/-- A one-shot slot is idle after a TICK because its shot ended, which clears the count, or because it was idle
before and saw no edge, which leaves the count. -/
theorem Slot.idleAtRest_tickSlot {sl : Slot} (h : sl.idleAtRest) (r : RandomPort) :
    (tickSlot sl r).1.idleAtRest := by
  unfold Slot.idleAtRest
  rw [tickSlot_shape, tickSlot_changeEnabled, tickSlot_cycleCount, afterPass2_changeEnabled,
    afterPass2_cycleCount]
  intro hmode hidle
  cases hgate : (gateSlot sl).changeEnabled with
  | false =>
    have hbefore : sl.changeEnabled = false := by
      rw [gateSlot_oneshot sl hmode] at hgate
      exact (Bool.or_eq_false_iff.mp hgate).1
    simp [wrapsNow, hgate, h hmode hbefore]
  | true =>
    have hend : wrapsNow sl = true ∧ lastCycle sl = true := by simpa [hgate, hmode] using hidle
    simp [hend]

theorem SlotEffect.inv {c : Instr} {sl sl' : Slot} (h : SlotEffect c sl sl') (hi : sl.Inv) : sl'.Inv := by
  cases h with
  | keep | setrate | setscale | settrig => exact hi
  | setpat | ldpat => exact Slot.inv_of_cycleCount_zero rfl
  | tick => exact ⟨Slot.missBounded_tickSlot hi.1 _, Slot.idleAtRest_tickSlot hi.2 _⟩

/-! ## One step -/

/-- What a step makes of the slot file: an idle step leaves every slot, `rst` resets every slot, and a command
has one of its effects on every slot. -/
theorem step_slots {s t : State} (h : step s = .next t) :
    t.numLeds = s.numLeds ∧ ∀ i, i < s.numLeds →
      t.slot i = s.slot i ∨ t.slot i = Slot.reset ∨ ∃ c, SlotEffect c (s.slot i) (t.slot i) := by
  unfold step at h
  split at h
  next =>
    cases h
    exact ⟨rfl, fun i _ => .inl rfl⟩
  next rest _ =>
    cases h
    exact ⟨State.numLeds_resetRegisters _, fun i hi => .inr (.inl (State.slot_resetRegisters _ hi))⟩
  next w rest _ =>
    obtain ⟨u, hu, hn, heff⟩ := exec_slotsAfter (decode w) (s.accept rest)
    cases hu.symm.trans h
    exact ⟨hn, fun i hi => .inr (.inr ⟨_, heff i hi⟩)⟩

/-- Settles O43: each of the three things a step can make of a slot keeps the slot's invariant, and no step changes
the number of slots. -/
theorem stepKeepsTheInvariant : Obligations.StepKeepsTheInvariant := by
  intro s t hinv hstep
  obtain ⟨hsize, hslot⟩ := s.inv_iff.mp hinv
  obtain ⟨hn, hafter⟩ := step_slots hstep
  refine ⟨t.inv_iff.mpr ⟨?_, fun i hi => ?_⟩, hn⟩
  · rwa [State.sizeOk, hn]
  · rw [hn] at hi
    rcases hafter i hi with hkeep | hreset | ⟨c, heff⟩
    · rw [hkeep]
      exact hslot i hi
    · rw [hreset]
      exact Slot.inv_reset
    · exact heff.inv (hslot i hi)

/-! ## Reset -/

theorem State.inv_of_construct {p : Config.Params} {s : State} (h : State.construct p = some s) : s.Inv := by
  refine s.inv_iff.mpr ⟨?_, fun i hi => ?_⟩
  · obtain ⟨hv, -⟩ := State.construct_eq_some_iff.mp h
    rw [State.sizeOk, State.numLeds_of_construct h]
    exact (Config.Params.numLeds_range hv).2
  · rw [State.slot_of_construct h hi]
    exact Slot.inv_reset

/-- Settles O42: `State.reset` is a constructed block, and every slot of a constructed block is as reset. -/
theorem resetMeetsTheInvariant : Obligations.ResetMeetsTheInvariant :=
  ⟨State.inv_of_construct (p := Config.defaultParams) rfl, fun _ _ => State.inv_of_construct⟩

end Sys2Proof.Machine
end

section
/-! What of the shape register a TICK depends on, and with it that ONESHOT makes GATEOUT without effect
(spec/10_state.md R26). -/

namespace Sys2Proof.Machine

/-- Two shape bytes with the same trigger mode, miss length, selector and INVERT flag. -/
structure ShapesAgree (a b : Byte) : Prop where
  mode : trigMode a = trigMode b
  miss : missLen a = missLen b
  sel : shapeSel a = shapeSel b
  invert : shapeFlag a Config.F_INVERT = shapeFlag b Config.F_INVERT

/-- The slot with another shape byte. -/
def Slot.withShape (sl : Slot) (sh : Byte) : Slot := { sl with shape := sh }

@[simp] theorem Slot.withShape_shape (sl : Slot) (sh : Byte) : (sl.withShape sh).shape = sh := rfl

/-- Pass 3 too reads the two mode bits only through the mode. -/
theorem forcedZero_eq_mode (sl : Slot) :
    forcedZero sl =
      (decide (trigMode sl.shape ≠ .gatechange) && !sl.changeEnabled || decide (sl.cycleCount ≠ 0)) := by
  unfold forcedZero trigMode
  cases shapeFlag sl.shape Config.F_ONESHOT <;> cases shapeFlag sl.shape Config.F_GATEOUT <;> simp

theorem levelOf_congr {a b : Byte} (h : ShapesAgree a b) (scale base : Byte) :
    levelOf a scale base = levelOf b scale base := by
  simp only [levelOf, inverted, h.invert]

/-! ## A TICK of a slot with another shape byte that agrees with its own -/

section WithShape

variable {sl : Slot} {sh : Byte} (h : ShapesAgree sh sl.shape)

include h

theorem gateSlot_withShape : gateSlot (sl.withShape sh) = (gateSlot sl).withShape sh := by
  by_cases hm : trigMode sl.shape = .oneshot
  · rw [gateSlot_oneshot sl hm, gateSlot_oneshot (sl.withShape sh) (h.mode.trans hm)]
    rfl
  · rw [gateSlot_gate sl hm, gateSlot_gate (sl.withShape sh) fun e => hm (h.mode.symm.trans e)]
    rfl

theorem endShot_withShape : endShot (sl.withShape sh) = (endShot sl).withShape sh := by
  unfold endShot
  rw [Slot.withShape_shape, h.mode]
  split <;> rfl

theorem lastCycle_withShape : lastCycle (sl.withShape sh) = lastCycle sl := by
  unfold lastCycle
  rw [Slot.withShape_shape, h.miss]
  rfl

theorem missAccounting_withShape :
    missAccounting (sl.withShape sh) = (missAccounting sl).withShape sh := by
  cases hl : lastCycle sl with
  | true =>
    rw [missAccounting_last sl hl, missAccounting_last (sl.withShape sh) ((lastCycle_withShape h).trans hl)]
    exact endShot_withShape (sl := { sl with cycleCount := 0 }) h
  | false =>
    rw [missAccounting_more sl hl, missAccounting_more (sl.withShape sh) ((lastCycle_withShape h).trans hl)]
    rfl

theorem wrapsNow_withShape : wrapsNow (sl.withShape sh) = wrapsNow sl := by
  unfold wrapsNow
  rw [gateSlot_withShape h]
  rfl

theorem afterPass2_slot_withShape :
    (afterPass2 (sl.withShape sh)).slot = (afterPass2 sl).slot.withShape sh := by
  have hg := gateSlot_withShape h
  rcases afterPass2_cases sl with ⟨hce, e⟩ | ⟨hce, hs, e⟩ | ⟨hce, hs, e⟩
  · rw [afterPass2_idle (sl.withShape sh) (by rw [hg]; exact hce), e, hg]
  · rw [afterPass2_advance (sl.withShape sh) (by rw [hg]; exact hce) hs, e, hg]
    rfl
  · rw [afterPass2_wrap (sl.withShape sh) (by rw [hg]; exact hce) hs, e, hg]
    exact missAccounting_withShape (sl := { gateSlot sl with counter := _ }) (sh := sh) (by simpa using h)

theorem forcedZero_withShape : forcedZero (sl.withShape sh) = forcedZero sl := by
  rw [forcedZero_eq_mode, forcedZero_eq_mode, Slot.withShape_shape, h.mode]
  rfl

theorem forcedZero_afterPass2_withShape :
    forcedZero (afterPass2 (sl.withShape sh)).slot = forcedZero (afterPass2 sl).slot := by
  rw [afterPass2_slot_withShape h]
  exact forcedZero_withShape (by simpa using h)

theorem asksDraw_withShape : asksDraw (sl.withShape sh) = asksDraw sl := by
  rw [asksDraw_eq, asksDraw_eq, forcedZero_afterPass2_withShape h, wrapsNow_withShape h,
    Slot.withShape_shape, h.sel]

/-- A TICK does the same to the slot under both shape bytes, from any two sources that would give it the same
byte. -/
theorem tickSlot_withShape {r r' : RandomPort} (hr : r.draw.1 = r'.draw.1) :
    (tickSlot (sl.withShape sh) r').1 = (tickSlot sl r).1.withShape sh := by
  have hslot := afterPass2_slot_withShape h
  have hforced := forcedZero_afterPass2_withShape h
  have hsel : muxSelect (shapeSel (sl.withShape sh).shape) = muxSelect (shapeSel sl.shape) :=
    congrArg muxSelect h.sel
  rcases tickSlot_cases sl r with ⟨hf, e⟩ | ⟨hf, row, hm, e⟩ | ⟨hf, hm, hw, e⟩ | ⟨hf, hm, hw, e⟩
  · rw [tickSlot_forced _ r' (hforced.trans hf), e, hslot]
    rfl
  · rw [tickSlot_row _ r' (hforced.trans hf) (hsel.trans hm), e, hslot, ← levelOf_congr h]
    rfl
  · rw [tickSlot_draw _ r' (hforced.trans hf) (hsel.trans hm) ((wrapsNow_withShape h).trans hw), e, hslot,
      ← levelOf_congr h, hr]
    rfl
  · rw [tickSlot_hold _ r' (hforced.trans hf) (hsel.trans hm) ((wrapsNow_withShape h).trans hw), e, hslot]
    rfl

end WithShape

/-! ## GATEOUT under ONESHOT -/

/-- Flipping bit 6 flips no other bit. -/
theorem getLsbD_xor_gateout (shape : Byte) {k : Nat} (hk : k < 8) (h6 : k ≠ 6) :
    (shape ^^^ 0x40#8).getLsbD k = shape.getLsbD k := by
  have hbit : (0x40#8).getLsbD k = false := by
    revert k
    decide
  rw [BitVec.getLsbD_xor, hbit, Bool.xor_false]

theorem shapesAgree_xor_gateout {shape : Byte} (h : shape.getLsbD 7 = true) :
    ShapesAgree (shape ^^^ 0x40#8) shape where
  mode := by
    have h' : (shape ^^^ 0x40#8).getLsbD 7 = true := by rwa [getLsbD_xor_gateout _ (by decide) (by decide)]
    rw [(trigMode_oneshot_iff _).mpr h, (trigMode_oneshot_iff _).mpr h']
  miss := by
    rw [missLen_eq_bits, missLen_eq_bits, getLsbD_xor_gateout _ (by decide) (by decide),
      getLsbD_xor_gateout _ (by decide) (by decide)]
  sel := by
    apply BitVec.eq_of_getLsbD_eq
    intro k hk
    have hbit : (shape ^^^ 0x40#8).getLsbD k = shape.getLsbD k := getLsbD_xor_gateout _ (by omega) (by omega)
    simp only [shapeSel, BitVec.getLsbD_extractLsb', Nat.zero_add, hbit]
  invert := getLsbD_xor_gateout _ (by decide) (by decide)

/-- Settles O57: with ONESHOT set, the two shape bytes agree in everything a TICK reads. -/
theorem oneshotIgnoresGateout : Obligations.OneshotIgnoresGateout := by
  intro s s' i hi hi' hone hslot hdraw
  have hagree := shapesAgree_xor_gateout hone
  obtain ⟨t, ht, -, -, -, -, hafter⟩ := execTick_spec s
  obtain ⟨t', ht', -, -, -, -, hafter'⟩ := execTick_spec s'
  have hwith : s'.slot i = (s.slot i).withShape ((s.slot i).shape ^^^ 0x40#8) := hslot
  refine ⟨t, t', ht, ht', ?_, ?_⟩
  · rw [State.drawsAt_iff, State.drawsAt_iff, hwith, asksDraw_withShape hagree]
  · rw [hafter i hi, hafter' i hi', hwith]
    exact tickSlot_withShape hagree hdraw

end Sys2Proof.Machine
end

section
/-! One slot of the block: where a led index points (spec/20_memory.md R61), and what a command that writes one
slot does to it (R66, R67, R71 b and c). -/

namespace Sys2Proof.Machine

/-! ## Writes of one slot -/

/-- Two writes of one entry are one write of their composition. -/
theorem Bank.modify_modify {α : Type} (b : Bank α) (i : Nat) (f g : α → α) :
    (b.modify i f).modify i g = b.modify i (g ∘ f) := by
  cases i with
  | zero => rfl
  | succ k => simp [Bank.modify, List.modify_modify_eq]

theorem State.modifySlot_modifySlot (s : State) (i : Nat) (f g : Slot → Slot) :
    (s.modifySlot i f).modifySlot i g = s.modifySlot i (g ∘ f) :=
  congrArg s.withSlots (Bank.modify_modify s.slots i f g)

@[simp] theorem State.idx_modifySlot (s : State) (i : Nat) (f : Slot → Slot) (led : Byte) :
    (s.modifySlot i f).idx led = s.idx led := by
  simp [State.idx]

theorem State.onlySlot_modifySlot (s : State) (i : Nat) (f : Slot → Slot) :
    s.onlySlot (s.modifySlot i f) i := by
  refine ⟨State.numLeds_modifySlot s i f, fun j hj hne => ?_, rfl, rfl, rfl⟩
  rw [State.slot_modifySlot s hj, if_neg hne]

/-! ## The commands that write one slot -/

/-- In every state, `c` is the write `f` of the slot that `led` addresses, and nothing else. -/
def WritesSlot (c : Instr) (led : Byte) (f : Slot → Slot) : Prop :=
  ∀ s, exec c s = .next (s.modifySlot (s.idx led) f)

theorem writesSlot_setrate (led : Byte) (v : Ctrl) :
    WritesSlot (.setrate led v) led fun sl => { sl with rate := shiftedCtrl Config.RATE_SHIFT v } :=
  fun _ => rfl

theorem writesSlot_setscale (led : Byte) (v : Ctrl) :
    WritesSlot (.setscale led v) led fun sl => { sl with scale := shiftedCtrl Config.SCALE_SHIFT v } :=
  fun _ => rfl

theorem writesSlot_settrig (led : Byte) (v : Ctrl) :
    WritesSlot (.settrig led v) led fun sl => { sl with trig := v } :=
  fun _ => rfl

theorem writesSlot_setpat (led sh : Byte) (ph : BitVec 16) :
    WritesSlot (.setpat led sh ph) led (setPattern sh ph) :=
  fun _ => rfl

/-- RDPAT answers from the slot its `led` addresses. -/
theorem exec_rdpat (led : Byte) (s : State) :
    exec (.rdpat led) s = .next (s.respond (patternWord (s.slot (s.idx led)))) := rfl

section Writes

variable {c c' : Instr} {led led' : Byte} {f g : Slot → Slot}

/-- Frame of one write: no other slot, and nothing outside the slot file (R71 c). -/
theorem WritesSlot.onlySlot (h : WritesSlot c led f) (s : State) :
    ∃ t, exec c s = .next t ∧ s.onlySlot t (s.idx led) :=
  ⟨_, h s, s.onlySlot_modifySlot _ _⟩

/-- Of its `led`, a write sees only the slot addressed (R61). -/
theorem WritesSlot.exec_eq_of_idx_eq (h : WritesSlot c led f) (h' : WritesSlot c' led' f) {s : State}
    (hidx : s.idx led = s.idx led') : exec c s = exec c' s := by
  rw [h, h', hidx]

/-- A write that reads nothing of what the first one wrote (`g ∘ f = g`) leaves no trace of it (R67, R71 b). -/
theorem WritesSlot.last_wins (h : WritesSlot c led f) (h' : WritesSlot c' led g) (hgf : g ∘ f = g)
    (s : State) : ∃ t u, exec c s = .next t ∧ exec c' t = .next u ∧ exec c' s = .next u := by
  refine ⟨_, _, h s, ?_, h' s⟩
  rw [h', State.idx_modifySlot, State.modifySlot_modifySlot, hgf]

end Writes

/-- Settles O6: each of the four commands overwrites all it writes, with values that do not depend on the slot. -/
theorem lastWriteOfASlotWins : Obligations.LastWriteOfASlotWins := fun led s =>
  ⟨fun v v' => (writesSlot_setrate led v).last_wins (writesSlot_setrate led v') rfl s,
    fun v v' => (writesSlot_setscale led v).last_wins (writesSlot_setscale led v') rfl s,
    fun v v' => (writesSlot_settrig led v).last_wins (writesSlot_settrig led v') rfl s,
    fun sh sh' ph ph' => (writesSlot_setpat led sh ph).last_wins (writesSlot_setpat led sh' ph') rfl s⟩

/-- Settles O8: all five commands use their `led` through `State.idx` alone, which is the remainder of R61. -/
theorem ledIndexWrapsModuloCount : Obligations.LedIndexWrapsModuloCount := by
  refine fun s led sh v ph => ⟨s.idx_lt led, ?_, exec_rdpat led s, fun led' hmod => ?_⟩
  · simp only [List.forall_mem_cons]
    exact ⟨(writesSlot_setrate led v).onlySlot s, (writesSlot_setscale led v).onlySlot s,
      (writesSlot_settrig led v).onlySlot s, (writesSlot_setpat led sh ph).onlySlot s, by nofun⟩
  · have hidx : s.idx led = s.idx led' := hmod
    refine ⟨(writesSlot_setrate led v).exec_eq_of_idx_eq (writesSlot_setrate led' v) hidx,
      (writesSlot_setscale led v).exec_eq_of_idx_eq (writesSlot_setscale led' v) hidx,
      (writesSlot_settrig led v).exec_eq_of_idx_eq (writesSlot_settrig led' v) hidx,
      (writesSlot_setpat led sh ph).exec_eq_of_idx_eq (writesSlot_setpat led' sh ph) hidx, ?_⟩
    rw [exec_rdpat, exec_rdpat, hidx]

end Sys2Proof.Machine
end

section
/-! Decode of encode and encode of decode (spec/30_encoding.md R89 to R91): what a command word decodes to, by its
opcode, and what the encoder makes of an instruction, as a number. -/

namespace Sys2Proof

/-! ## Decoding an encoded instruction -/

/-- `DecodesTo w c`: the opcode field of `w` is that of the command `c`, whose operands are the fields of `w`. -/
inductive DecodesTo (w : Cmd) : Instr → Prop where
  | nop (h : cmdOp w = Config.OP_NOP) : DecodesTo w .nop
  | setrate (h : cmdOp w = Config.OP_SETRATE) : DecodesTo w (.setrate (cmdLed w) (dataValue (cmdData w)))
  | setscale (h : cmdOp w = Config.OP_SETSCALE) : DecodesTo w (.setscale (cmdLed w) (dataValue (cmdData w)))
  | settrig (h : cmdOp w = Config.OP_SETTRIG) : DecodesTo w (.settrig (cmdLed w) (dataValue (cmdData w)))
  | setpat (h : cmdOp w = Config.OP_SETPAT) :
      DecodesTo w (.setpat (cmdLed w) (dataShape (cmdData w)) (dataPhase16 (cmdData w)))
  | rdpat (h : cmdOp w = Config.OP_RDPAT) : DecodesTo w (.rdpat (cmdLed w))
  | tick (h : cmdOp w = Config.OP_TICK) : DecodesTo w .tick
  | reserved7 (h : cmdOp w = 0x7) : DecodesTo w .reserved7
  | reserved8 (h : cmdOp w = 0x8) : DecodesTo w .reserved8
  | reserved9 (h : cmdOp w = 0x9) : DecodesTo w .reserved9
  | reservedA (h : cmdOp w = 0xA) : DecodesTo w .reservedA
  | reservedB (h : cmdOp w = 0xB) : DecodesTo w .reservedB
  | reservedC (h : cmdOp w = 0xC) : DecodesTo w .reservedC
  | reservedD (h : cmdOp w = 0xD) : DecodesTo w .reservedD
  | reservedE (h : cmdOp w = 0xE) : DecodesTo w .reservedE
  | reservedF (h : cmdOp w = 0xF) : DecodesTo w .reservedF

/-- The decoder, opcode by opcode (R91). -/
theorem decodesTo_decode (w : Cmd) : DecodesTo w (decode w) := by
  rcases opcode_cases (cmdOp w) with h | h | h | h | h | h | h | h | h | h | h | h | h | h | h | h <;>
    simp only [decode, h, Config.OP_NOP, Config.OP_SETRATE, Config.OP_SETSCALE, Config.OP_SETTRIG, Config.OP_SETPAT,
      Config.OP_RDPAT, Config.OP_TICK, BitVec.reduceEq, ↓reduceIte]
  exacts [.nop h, .setrate h, .setscale h, .settrig h, .setpat h, .rdpat h, .tick h, .reserved7 h, .reserved8 h,
    .reserved9 h, .reservedA h, .reservedB h, .reservedC h, .reservedD h, .reservedE h, .reservedF h]

theorem DecodesTo.wellFormed {w : Cmd} {c : Instr} (h : DecodesTo w c) : c.wellFormed = true := by
  cases h <;> rfl

/-- Decoding inverts encoding, up to the expansion of the pseudo names (R90, R91). -/
@[simp] theorem decode_encode (c : Instr) : decode (encode c) = expandPseudo c := by
  cases c <;> simp [encode, decode, expandPseudo, opcodeOf, Config.OP_NOP, Config.OP_SETRATE, Config.OP_SETSCALE,
    Config.OP_SETTRIG, Config.OP_SETPAT, Config.OP_RDPAT, Config.OP_TICK]

theorem expandPseudo_of_wellFormed {c : Instr} (h : c.wellFormed = true) : expandPseudo c = c := by
  cases c with
  | ldpat | encpat => cases h
  | _ => rfl

theorem decode_encode_of_wellFormed {c : Instr} (h : c.wellFormed = true) : decode (encode c) = c := by
  rw [decode_encode, expandPseudo_of_wellFormed h]

/-- Settles O47: decoding inverts encoding on the port's commands, and the decoder yields only those. -/
theorem decodeOfEncodeIsTheInstruction : Obligations.DecodeOfEncodeIsTheInstruction :=
  ⟨fun _ => decode_encode_of_wellFormed, decode_encode,
    fun w => decode_encode_of_wellFormed (decodesTo_decode w).wellFormed⟩

/-- Settles O48: a well-formed command is what its own word decodes to. -/
theorem decoderYieldsExactlyTheWellFormed : Obligations.DecoderYieldsExactlyTheWellFormed := by
  refine fun c => ⟨fun h => ⟨encode c, decode_encode_of_wellFormed h⟩, ?_⟩
  rintro ⟨w, rfl⟩
  exact (decodesTo_decode w).wellFormed

/-- Settles O54: the opcode field of each word chooses the command, its other fields are the operands. -/
theorem writtenOutWordsDecode : Obligations.WrittenOutWordsDecode := by
  unfold Obligations.WrittenOutWordsDecode
  decide

/-! ## Encodings as numbers -/

/-- Fields side by side are the digits of a number. -/
theorem toNat_append_eq {m n : Nat} (x : BitVec m) (y : BitVec n) :
    (x ++ y).toNat = x.toNat * 2 ^ n + y.toNat := by
  rw [BitVec.toNat_append, ← Nat.shiftLeft_add_eq_or_of_lt y.isLt, Nat.shiftLeft_eq]

theorem cmdWord_toNat (op : Opcode) (led : Byte) (data : PatWord) :
    (cmdWord op led data).toNat = op.toNat * 2 ^ 44 + led.toNat * 2 ^ 32 + data.toNat := by
  simp only [cmdWord, toNat_append_eq, BitVec.toNat_zero]
  omega

theorem ctrlData_toNat (v : Ctrl) : (ctrlData v).toNat = v.toNat :=
  BitVec.toNat_setWidth_of_le (by decide)

theorem patData_toNat (sh : Byte) (ph : BitVec 16) :
    (patData sh ph).toNat = sh.toNat * 2 ^ 24 + ph.toNat := by
  simp only [patData, toNat_append_eq, BitVec.toNat_zero]
  omega

theorem bytesWord_toNat (b0 b1 b2 b3 : Byte) :
    (bytesWord b0 b1 b2 b3).toNat = b0.toNat * 2 ^ 24 + b1.toNat * 2 ^ 16 + b2.toNat * 2 ^ 8 + b3.toNat := by
  simp only [bytesWord, toNat_append_eq]
  omega

/-- Settles O53: each encoding is a word of fields, hence the number whose digits they are. -/
theorem encodingsAreTheSpecsNumbers : Obligations.EncodingsAreTheSpecsNumbers := by
  refine ⟨by decide, by decide, fun led sh b1 b2 b3 v ph => ?_⟩
  simp [encode, opcodeOf, cmdWord_toNat, ctrlData_toNat, patData_toNat, bytesWord_toNat, Config.OP_SETRATE,
    Config.OP_SETSCALE, Config.OP_SETTRIG, Config.OP_SETPAT, Config.OP_RDPAT, Nat.add_assoc]

end Sys2Proof
end

section
/-! Canonical words (spec/30_encoding.md R84, R91): the bits a command uses are whole fields of its word but for the
control value and the stored phase, so the canonical word is the encoding of the command with its phase reduced. -/

namespace Sys2Proof

open Machine

/-! ## A word under a mask -/

/-- A mask made of fields keeps of each field what the field's mask keeps, and clears `rsv`. -/
theorem and_cmdWord (w : Cmd) (op : Opcode) (led : Byte) (data : PatWord) :
    w &&& cmdWord op led data = cmdWord (cmdOp w &&& op) (cmdLed w &&& led) (cmdData w &&& data) := by
  apply BitVec.eq_of_getLsbD_eq
  intro i hi
  rw [BitVec.getLsbD_and, getLsbD_cmdWord, getLsbD_cmdWord]
  split_ifs with h32 h40 h44
  · simp [cmdData, h32]
  · simp [cmdLed, show i - 32 < 8 by omega, show 32 + (i - 32) = i by omega]
  · exact Bool.and_false _
  · simp [cmdOp, show i - 44 < 4 by omega, show 44 + (i - 44) = i by omega]

/-- The bits of a control command's data that R85 a reads are its control value. -/
theorem and_ctrlMask (d : PatWord) : d &&& 0x3FF = ctrlData (dataValue d) := by
  apply BitVec.eq_of_getLsbD_eq
  intro i hi
  rw [BitVec.getLsbD_and, show (0x3FF : PatWord).getLsbD i = decide (i < 10) by revert i; decide]
  simp [ctrlData, dataValue, hi, Bool.and_comm]

/-- The phase that SETPAT stores, at the width it is written with (R120, R121). -/
def storedPhase (phase16 : BitVec 16) : BitVec 16 := (reducedPhase phase16).setWidth 16

theorem reducedPhase_eq_setWidth (phase16 : BitVec 16) : reducedPhase phase16 = phase16.setWidth 11 := by
  apply BitVec.eq_of_toNat_eq
  simp [reducedPhase, Config.PHASE_W, Config.CYCLE]

@[simp] theorem reducedPhase_storedPhase (phase16 : BitVec 16) :
    reducedPhase (storedPhase phase16) = reducedPhase phase16 := by
  rw [reducedPhase_eq_setWidth, storedPhase]
  exact BitVec.setWidth_setWidth_of_le _ (by decide)

theorem storedPhase_lt (phase16 : BitVec 16) : (storedPhase phase16).toNat < Config.CYCLE := by
  rw [storedPhase, BitVec.toNat_setWidth_of_le (by decide)]
  exact (reducedPhase phase16).isLt

theorem storedPhase_of_lt {phase16 : BitVec 16} (h : phase16.toNat < Config.CYCLE) :
    storedPhase phase16 = phase16 := by
  apply BitVec.eq_of_toNat_eq
  rw [storedPhase, reducedPhase_eq_setWidth, BitVec.toNat_setWidth_of_le (by decide), BitVec.toNat_setWidth]
  exact Nat.mod_eq_of_lt h

/-- The bits of SETPAT's data that the block uses are its shape and its stored phase (R84, R85 b). -/
theorem and_patMask (d : PatWord) :
    d &&& 0xFF0007FF = patData (dataShape d) (storedPhase (dataPhase16 d)) := by
  apply BitVec.eq_of_getLsbD_eq
  intro i hi
  rw [BitVec.getLsbD_and, getLsbD_patData,
    show (0xFF0007FF : PatWord).getLsbD i = (decide (i < 11) || decide (24 ≤ i)) by revert i; decide]
  split_ifs with h16 h24
  · simp [storedPhase, reducedPhase_eq_setWidth, dataPhase16, h16, show ¬ 24 ≤ i by omega, Bool.and_comm]
  · simp [show ¬ i < 11 by omega, show ¬ 24 ≤ i by omega]
  · simp [dataShape, show 24 ≤ i by omega, show i - 24 < 8 by omega, show 24 + (i - 24) = i by omega]

/-! ## Commands with their phase reduced -/

/-- The command as the block takes it: SETPAT's written phase reduced to the stored one. -/
def Instr.reduced : Instr → Instr
  | .setpat led sh ph => .setpat led sh (storedPhase ph)
  | c => c

theorem exec_reduced (c : Instr) (s : State) : exec c.reduced s = exec c s := by
  cases c with
  | setpat led sh ph =>
    have hwrite : setPattern sh (storedPhase ph) = setPattern sh ph := by
      funext sl
      simp only [setPattern, reducedPhase_storedPhase]
    rw [Instr.reduced, writesSlot_setpat, writesSlot_setpat, hwrite]
  | _ => rfl

theorem Instr.wellFormed_reduced (c : Instr) : c.reduced.wellFormed = c.wellFormed := by
  cases c <;> rfl

theorem Instr.canonical_reduced {c : Instr} (h : c.wellFormed = true) : c.reduced.canonical = true := by
  cases c with
  | setpat led sh ph => exact decide_eq_true (storedPhase_lt ph)
  | ldpat | encpat => cases h
  | _ => rfl

theorem Instr.wellFormed_of_canonical {c : Instr} (h : c.canonical = true) : c.wellFormed = true := by
  cases c with
  | ldpat | encpat => cases h
  | _ => rfl

theorem Instr.reduced_of_canonical {c : Instr} (h : c.canonical = true) : c.reduced = c := by
  cases c with
  | setpat led sh ph => rw [Instr.reduced, storedPhase_of_lt (of_decide_eq_true h)]
  | _ => rfl

/-! ## The canonical word is the encoding of the reduced command -/

/-- Where the bits an opcode uses are its own field and masks of the led and data fields, the canonical word keeps
those. -/
theorem canonicalWord_of_usedBits {w : Cmd} {led : Byte} {data : PatWord}
    (h : usedBits (cmdOp w) = cmdWord (BitVec.allOnes 4) led data) :
    canonicalWord w = cmdWord (cmdOp w) (cmdLed w &&& led) (cmdData w &&& data) := by
  rw [canonicalWord, h, and_cmdWord, BitVec.and_allOnes]

theorem DecodesTo.canonicalWord_eq {w : Cmd} {c : Instr} (hdec : DecodesTo w c) :
    canonicalWord w = encode c.reduced := by
  cases hdec with
  | setrate h | setscale h | settrig h =>
    rw [canonicalWord_of_usedBits (led := BitVec.allOnes 8) (data := 0x3FF) (by rw [h]; decide), h,
      BitVec.and_allOnes, and_ctrlMask]
    rfl
  | setpat h =>
    rw [canonicalWord_of_usedBits (led := BitVec.allOnes 8) (data := 0xFF0007FF) (by rw [h]; decide), h,
      BitVec.and_allOnes, and_patMask]
    rfl
  | rdpat h =>
    rw [canonicalWord_of_usedBits (led := BitVec.allOnes 8) (data := 0#32) (by rw [h]; decide), h,
      BitVec.and_allOnes, BitVec.and_zero]
    rfl
  | nop h | tick h | reserved7 h | reserved8 h | reserved9 h | reservedA h | reservedB h | reservedC h
    | reservedD h | reservedE h | reservedF h =>
    rw [canonicalWord_of_usedBits (led := 0#8) (data := 0#32) (by rw [h]; decide), h, BitVec.and_zero,
      BitVec.and_zero]
    rfl

theorem canonicalWord_eq_encode_reduced (w : Cmd) : canonicalWord w = encode (decode w).reduced :=
  (decodesTo_decode w).canonicalWord_eq

theorem decode_canonicalWord (w : Cmd) : decode (canonicalWord w) = (decode w).reduced := by
  rw [canonicalWord_eq_encode_reduced]
  exact decode_encode_of_wellFormed ((Instr.wellFormed_reduced _).trans (decodesTo_decode w).wellFormed)

theorem encodeCanonical_of_wellFormed {c : Instr} (h : c.wellFormed = true) :
    encodeCanonical c = encode c.reduced := by
  rw [encodeCanonical, canonicalWord_eq_encode_reduced, decode_encode_of_wellFormed h]

theorem encodeCanonical_of_canonical {c : Instr} (h : c.canonical = true) : encodeCanonical c = encode c := by
  rw [encodeCanonical_of_wellFormed (Instr.wellFormed_of_canonical h), Instr.reduced_of_canonical h]

theorem encodeCanonical_decode (w : Cmd) : encodeCanonical (decode w) = canonicalWord w := by
  rw [encodeCanonical_of_wellFormed (decodesTo_decode w).wellFormed, canonicalWord_eq_encode_reduced]

theorem canonical_decode_canonicalWord (w : Cmd) : (decode (canonicalWord w)).canonical = true := by
  rw [decode_canonicalWord]
  exact Instr.canonical_reduced (decodesTo_decode w).wellFormed

/-- A canonical word decodes to a canonical command (R91). -/
theorem canonical_decode_of_canonicalWord_eq {w : Cmd} (h : canonicalWord w = w) :
    (decode w).canonical = true :=
  h ▸ canonical_decode_canonicalWord w

theorem exec_decode_canonicalWord (w : Cmd) (s : State) :
    exec (decode (canonicalWord w)) s = exec (decode w) s := by
  rw [decode_canonicalWord, exec_reduced]

/-- Settles O49: the canonical word is the encoding of the decoded command with its phase reduced, and a canonical
command has none to reduce. -/
theorem canonicalWordKeepsTheMeaning : Obligations.CanonicalWordKeepsTheMeaning := by
  refine ⟨fun w => ⟨encodeCanonical_decode w, cmdOp_canonicalWord w, ?_, canonicalWord_canonicalWord w, fun h => ?_,
    exec_decode_canonicalWord w⟩, fun c h => ?_, fun w => canonical_decode_of_canonicalWord_eq⟩
  · rw [canonicalWord, BitVec.and_assoc, BitVec.and_not_self]
    exact BitVec.and_zero
  · rw [← encodeCanonical_of_canonical (canonical_decode_of_canonicalWord_eq h), encodeCanonical_decode, h]
  · have henc := encodeCanonical_of_canonical h
    exact ⟨henc, by rw [henc, decode_encode_of_wellFormed (Instr.wellFormed_of_canonical h)]⟩

/-! ## Ignored bits -/

theorem cmdOp_and_usedBits (w : Cmd) (op : Opcode) : cmdOp (w &&& usedBits op) = cmdOp w := by
  apply BitVec.eq_of_getLsbD_eq
  intro i hi
  rw [← getLsbD_op _ _ hi, ← getLsbD_op _ _ hi, BitVec.getLsbD_and, usedBits_op _ _ hi, Bool.and_true]

/-- Settles O52: the two words have the same opcode, hence the same canonical word, and that executes as both. -/
theorem ignoredBitsHaveNoEffect : Obligations.IgnoredBitsHaveNoEffect := by
  intro w w' s hagree
  have hop : cmdOp w = cmdOp w' := by
    rw [← cmdOp_and_usedBits w (cmdOp w), hagree, cmdOp_and_usedBits]
  have hcanon : canonicalWord w = canonicalWord w' := by
    rw [canonicalWord, canonicalWord, ← hop, hagree]
  rw [← exec_decode_canonicalWord w, hcanon, exec_decode_canonicalWord]

end Sys2Proof
end

section
/-! The opcode table (spec/30_encoding.md R92): which row a word matches, and how a row's columns agree. -/

namespace Sys2Proof

/-! ## The row of an instruction -/

/-- The table's row of an instruction. -/
def rowOf : Instr → OpcodeRow
  | .nop => rowNop
  | .setrate _ _ => rowSetrate
  | .setscale _ _ => rowSetscale
  | .settrig _ _ => rowSettrig
  | .setpat _ _ _ => rowSetpat
  | .rdpat _ => rowRdpat
  | .tick => rowTick
  | .reserved7 => rowReserved7
  | .reserved8 => rowReserved8
  | .reserved9 => rowReserved9
  | .reservedA => rowReservedA
  | .reservedB => rowReservedB
  | .reservedC => rowReservedC
  | .reservedD => rowReservedD
  | .reservedE => rowReservedE
  | .reservedF => rowReservedF
  | .ldpat _ _ _ _ _ => rowLdpat
  | .encpat _ => rowEncpat

theorem rowOf_mem (c : Instr) : rowOf c ∈ opcodeTable := by
  cases c <;> simp [rowOf, opcodeTable]

@[simp] theorem rowOf_mnemonic (c : Instr) : (rowOf c).mnemonic = mnemonicOf c := by
  cases c <;> rfl

theorem rowOf_pseudo (c : Instr) : (rowOf c).pseudo = !c.wellFormed := by
  cases c <;> rfl

/-- The row's match is the instruction's opcode. -/
theorem rowOf_matchBits (c : Instr) : (rowOf c).matchBits = cmdWord (opcodeOf c) 0#8 0#32 := by
  cases c <;> (simp only [rowOf, opcodeOf]; decide)

/-! ## The columns -/

/-- Settles O51: the rows are closed data, so that their columns agree is computed row by row. -/
theorem tableColumnsAgree : Obligations.TableColumnsAgree :=
  ⟨rfl, by decide, rfl, rfl, rfl⟩

theorem mask_of_mem_opcodeTable {r : OpcodeRow} (hr : r ∈ opcodeTable) : r.mask = 0xF00000000000 := by
  obtain ⟨-, hcolumns, -⟩ := tableColumnsAgree
  exact (hcolumns r hr).1

/-! ## The row a word matches -/

/-- Under the mask of the `op` field a word is its opcode and nothing else. -/
theorem and_opMask (w : Cmd) : w &&& 0xF00000000000 = cmdWord (cmdOp w) 0#8 0#32 := by
  rw [show (0xF00000000000 : Cmd) = cmdWord (BitVec.allOnes 4) 0#8 0#32 by decide, and_cmdWord, BitVec.and_allOnes,
    BitVec.and_zero, BitVec.and_zero]

/-- Whether a row covers a word depends on the word's opcode alone. -/
theorem covers_of_mem_opcodeTable {r : OpcodeRow} (hr : r ∈ opcodeTable) (w : Cmd) :
    r.covers w = (cmdWord (cmdOp w) 0#8 0#32 == r.matchBits) := by
  rw [OpcodeRow.covers, mask_of_mem_opcodeTable hr, and_opMask]

theorem DecodesTo.rows_eq {w : Cmd} {c : Instr} (hdec : DecodesTo w c) :
    opcodeTable.filter (fun r => !r.pseudo && r.covers w) = [rowOf c] := by
  have hcovers : opcodeTable.filter (fun r => !r.pseudo && r.covers w)
      = opcodeTable.filter (fun r => !r.pseudo && (cmdWord (cmdOp w) 0#8 0#32 == r.matchBits)) :=
    List.filter_congr fun r hr => by rw [covers_of_mem_opcodeTable hr]
  rw [hcovers]
  cases hdec with
  | nop h | setrate h | setscale h | settrig h | setpat h | rdpat h | tick h | reserved7 h | reserved8 h
    | reserved9 h | reservedA h | reservedB h | reservedC h | reservedD h | reservedE h | reservedF h =>
    rw [h]
    rfl

theorem cmdOp_encode (c : Instr) : cmdOp (encode c) = opcodeOf c := by
  cases c <;> exact cmdOp_cmdWord _ _ _

theorem rowOf_covers_encode (c : Instr) : (rowOf c).covers (encode c) = true := by
  rw [covers_of_mem_opcodeTable (rowOf_mem c), cmdOp_encode, beq_iff_eq, rowOf_matchBits]

/-- Settles O50: `rowOf` is the one row that covers a word among the non-pseudo ones. -/
theorem everyWordMatchesOneTableRow : Obligations.EveryWordMatchesOneTableRow := by
  refine ⟨fun w => ?_, fun c => ⟨rowOf c, rowOf_mem c, rowOf_mnemonic c, rowOf_covers_encode c, ?_⟩⟩
  · rw [(decodesTo_decode w).rows_eq, List.map_singleton, rowOf_mnemonic]
  · rw [rowOf_pseudo, Bool.not_eq_true']

end Sys2Proof
end

section
/-! What a command leaves outside the slot file, what the reserved opcodes do, and what one step runs
(spec/30_encoding.md R83, R86, R91; spec/20_memory.md R70). -/

namespace Sys2Proof

/-! ## The reserved opcodes -/

/-- The nine reserved commands (R86). -/
def reservedCommands : List Instr :=
  [.reserved7, .reserved8, .reserved9, .reservedA, .reservedB, .reservedC, .reservedD, .reservedE, .reservedF]

theorem DecodesTo.mem_reservedCommands {w : Cmd} {c : Instr} (hdec : DecodesTo w c) (hop : 7 ≤ (cmdOp w).toNat) :
    c ∈ reservedCommands := by
  cases hdec with
  | nop h | setrate h | setscale h | settrig h | setpat h | rdpat h | tick h =>
    rw [h] at hop
    exact absurd hop (by decide)
  | _ => decide

end Sys2Proof

namespace Sys2Proof.Machine

/-! ## Outside the slot file -/

/-- Settles O36: a write of a slot, an answer and a TICK each leave what is not theirs. -/
theorem onlyRdpatAnswers : Obligations.OnlyRdpatAnswers := by
  intro c s
  cases c with
  | tick =>
    obtain ⟨t, ht, -, hrsp, hinputs, -, -⟩ := execTick_spec s
    exact ⟨t, ht, hinputs, fun _ _ => hrsp, fun hne => absurd rfl hne⟩
  | rdpat led => exact ⟨_, rfl, rfl, fun hne _ => absurd rfl (hne led), fun _ => rfl⟩
  | encpat led => exact ⟨_, rfl, rfl, fun _ hne => absurd rfl (hne led), fun _ => rfl⟩
  | _ => exact ⟨_, rfl, rfl, fun _ _ => rfl, fun _ => rfl⟩

/-! ## Executing a reserved opcode -/

theorem exec_reserved {c : Instr} (hc : c ∈ reservedCommands) (s : State) : exec c s = .next s := by
  revert c
  simp only [reservedCommands, List.forall_mem_cons]
  exact ⟨rfl, rfl, rfl, rfl, rfl, rfl, rfl, rfl, rfl, by nofun⟩

/-- Settles O2: a word of opcode 7 or above decodes to a reserved command, of which NOP is none. -/
theorem reservedOpcodesChangeNothing : Obligations.ReservedOpcodesChangeNothing := by
  refine ⟨fun s c hc => exec_reserved hc s, fun s w hop => ?_⟩
  have hmem : decode w ∈ reservedCommands := (decodesTo_decode w).mem_reservedCommands hop
  refine ⟨exec_reserved hmem s, fun hnop => ?_⟩
  rw [hnop] at hmem
  exact absurd hmem (by decide)

/-! ## One step -/

theorem step_of_cmd {s : State} {w : Cmd} {rest : List Input} (h : s.inputs = .cmd w :: rest) :
    step s = exec (decode w) (s.accept rest) := by
  simp only [step, h]

theorem step_of_nil {s : State} (h : s.inputs = []) : step s = .next (s.accept []) := by
  simp only [step, h]

/-- A word given to the fetch port by its bits is offered first. -/
theorem inputs_withFetchWord (s : State) (w : Cmd) :
    (s.withFetchWord 48 w.toNat).inputs = .cmd w :: s.inputs := by
  rw [State.withFetchWord, State.withInputs_inputs, Nat.mod_eq_of_lt w.isLt, BitVec.ofNat_toNat,
    BitVec.setWidth_eq]

/-- Settles O38: by the three forms of what the host offers. -/
theorem stepRunsTheOfferedCommand : Obligations.StepRunsTheOfferedCommand := by
  refine ⟨fun s w rest h => step_of_cmd h, fun s w => step_of_cmd (inputs_withFetchWord s w), fun s h => ?_⟩
  rw [step_of_nil h, ← h]
  rfl

end Sys2Proof.Machine
end

section
/-! The assembler (spec/30_encoding.md R89, R90): each line as one condition on its operands. -/

namespace Sys2Proof.Machine

/-- An operand that is in range is handed on as a field; one that is not ends the line. -/
theorem operand_bind {α : Type} (n value : Nat) (f : BitVec n → Except AsmError α) :
    (operand n value >>= f) = if value < 2 ^ n then f (BitVec.ofNat n value) else .error .outOfRange := by
  unfold operand
  split <;> rfl

section Lines

variable (led value phase b0 b1 b2 b3 : Nat)

/-- The lines of a led and a control value. -/
theorem led_value_line (mk : Byte → Ctrl → Instr) :
    (do return [mk (← operand 8 led) (← operand 10 value)] : Except AsmError (List Instr)) =
      if led < 256 ∧ value < 1024 then .ok [mk (BitVec.ofNat 8 led) (BitVec.ofNat 10 value)]
      else .error .outOfRange := by
  simp only [operand_bind, ite_and]
  rfl

/-- The lines of a led alone. -/
theorem led_line (mk : Byte → Instr) :
    (do return [mk (← operand 8 led)] : Except AsmError (List Instr)) =
      if led < 256 then .ok [mk (BitVec.ofNat 8 led)] else .error .outOfRange := by
  simp only [operand_bind]
  rfl

theorem assemble_ldpat :
    assemble (.ldpat led b0 b1 b2 b3) =
      if led < 256 ∧ b0 < 256 ∧ b1 < 256 ∧ b2 < 256 ∧ b3 < 256 then
        .ok [.ldpat (BitVec.ofNat 8 led) (BitVec.ofNat 8 b0) (BitVec.ofNat 8 b1) (BitVec.ofNat 8 b2)
          (BitVec.ofNat 8 b3)]
      else .error .outOfRange := by
  simp only [assemble, operand_bind, ite_and]
  rfl

variable {shape : ShapeOperand}

/-- SETPAT, once its shape operand stands for a number. -/
theorem assemble_setpat {n : Nat} (h : shapeNumber shape = .ok n) :
    assemble (.setpat led shape phase) =
      if led < 256 ∧ n < 256 ∧ phase < 65536 then
        .ok [.setpat (BitVec.ofNat 8 led) (BitVec.ofNat 8 n) (BitVec.ofNat 16 phase)]
      else .error .outOfRange := by
  have hbody : assemble (.setpat led shape phase)
      = (do return [.setpat (← operand 8 led) (← operand 8 n) (← operand 16 phase)]) := by
    rw [assemble, h]
    rfl
  simp only [hbody, operand_bind, ite_and]
  rfl

theorem assemble_setpat_of_error {e : AsmError} (h : shapeNumber shape = .error e) :
    assemble (.setpat led shape phase) = .error e := by
  rw [assemble, h]
  rfl

end Lines

theorem shapeNumber_names {names : List ShapeName} (h : (names.filter ShapeName.isKind).length ≤ 1) :
    shapeNumber (.names names) = .ok (names.map ShapeName.value).sum :=
  if_pos h

theorem shapeNumber_names_of_twoKinds {names : List ShapeName}
    (h : 1 < (names.filter ShapeName.isKind).length) : shapeNumber (.names names) = .error .twoKinds :=
  if_neg (Nat.not_le.mpr h)

theorem isKind_iff (k : ShapeName) :
    k.isKind = true ↔ k ∈ [ShapeName.off, .saw, .triangle, .square, .pulse, .spike, .random, .on] := by
  cases k <;> decide

/-- Settles O55: each line assembles under the conjunction of its operands' ranges and is an error under its
negation. -/
theorem assemblerChecksOperandRanges : Obligations.AssemblerChecksOperandRanges := by
  refine ⟨by decide, isKind_iff, fun led value phase b0 b1 b2 b3 n names => ⟨rfl, rfl, fun hled hvalue => ?_,
    fun hout => ?_, fun hled => ?_, fun hout => ?_, fun hled h0 h1 h2 h3 => ?_, fun hout => ?_,
    fun hled hvalue hphase => ?_, fun hout => ?_, fun hkind hled hsum hphase => ?_, fun hkind hout => ?_,
    fun htwo => ?_⟩⟩
  · have hin : led < 256 ∧ value < 1024 := ⟨hled, hvalue⟩
    exact ⟨(led_value_line led value .setrate).trans (if_pos hin),
      (led_value_line led value .setscale).trans (if_pos hin),
      (led_value_line led value .settrig).trans (if_pos hin)⟩
  · have hin : ¬ (led < 256 ∧ value < 1024) := by omega
    exact ⟨(led_value_line led value .setrate).trans (if_neg hin),
      (led_value_line led value .setscale).trans (if_neg hin),
      (led_value_line led value .settrig).trans (if_neg hin)⟩
  · exact ⟨(led_line led .rdpat).trans (if_pos hled), (led_line led .encpat).trans (if_pos hled)⟩
  · have hin : ¬ led < 256 := by omega
    exact ⟨(led_line led .rdpat).trans (if_neg hin), (led_line led .encpat).trans (if_neg hin)⟩
  · exact (assemble_ldpat led b0 b1 b2 b3).trans (if_pos ⟨hled, h0, h1, h2, h3⟩)
  · exact (assemble_ldpat led b0 b1 b2 b3).trans (if_neg (by omega))
  · exact (assemble_setpat led phase rfl).trans (if_pos ⟨hled, hvalue, hphase⟩)
  · exact (assemble_setpat led phase rfl).trans (if_neg (by omega))
  · exact (assemble_setpat led phase (shapeNumber_names hkind)).trans (if_pos ⟨hled, hsum, hphase⟩)
  · exact (assemble_setpat led phase (shapeNumber_names hkind)).trans (if_neg (by omega))
  · exact assemble_setpat_of_error led phase (shapeNumber_names_of_twoKinds htwo)

end Sys2Proof.Machine
end

section
/-! The control commands (spec/40_control_commands.md R100 to R104): which words they are, what each stores, and
that writes of different registers commute. -/

namespace Sys2Proof

/-! ## The words of the control commands -/

/-- A word decodes to the one command that its opcode field names (R91). -/
theorem DecodesTo.decode_eq {w : Cmd} {c : Instr} (h : DecodesTo w c) : decode w = c := by
  cases h <;> simp [decode, *, Config.OP_NOP, Config.OP_SETRATE, Config.OP_SETSCALE, Config.OP_SETTRIG,
    Config.OP_SETPAT, Config.OP_RDPAT, Config.OP_TICK]

/-- The control value of a word is `cmd[9:0]` (R85 a). -/
theorem dataValue_cmdData (w : Cmd) : dataValue (cmdData w) = w.extractLsb' 0 10 := by
  simp only [dataValue, cmdData, BitVec.extractLsb'_extractLsb'_of_le, Nat.reduceLeDiff, zero_add]

end Sys2Proof

namespace Sys2Proof.Machine

/-! ## Writes that commute -/

theorem Bank.modify_comm {α : Type} (b : Bank α) (i j : Nat) {f g : α → α} (hfg : Function.Commute f g) :
    (b.modify i f).modify j g = (b.modify j g).modify i f := by
  by_cases hij : i = j
  · rw [hij, Bank.modify_modify, Bank.modify_modify, hfg.comp_eq]
  · refine Bank.ext_get (by simp) fun k hk => ?_
    have hlt : k < b.size := by simpa using hk
    obtain rfl | hkj := eq_or_ne k j
    · simp [Bank.get_modify, hlt, Ne.symm hij]
    · simp [Bank.get_modify, hlt, hkj]

theorem State.modifySlot_comm (s : State) (i j : Nat) {f g : Slot → Slot} (hfg : Function.Commute f g) :
    (s.modifySlot i f).modifySlot j g = (s.modifySlot j g).modifySlot i f :=
  congrArg s.withSlots (Bank.modify_comm s.slots i j hfg)

section Writes

variable {c c' : Instr} {led led' : Byte} {f g : Slot → Slot}

/-- Two writes whose effects on a slot commute end in one state, whether on one slot or on two (R71 d). -/
theorem WritesSlot.commute (h : WritesSlot c led f) (h' : WritesSlot c' led' g) (hfg : Function.Commute f g)
    (s : State) : ∃ t t' u, exec c s = .next t ∧ exec c' t = .next u ∧ exec c' s = .next t'
      ∧ exec c t' = .next u := by
  refine ⟨_, _, _, h s, h' _, h' s, ?_⟩
  rw [h, State.idx_modifySlot, State.idx_modifySlot, State.modifySlot_comm s _ _ hfg]

/-- What a write stores, and its frame. -/
theorem WritesSlot.stores (h : WritesSlot c led f) (s : State) :
    ∃ t, exec c s = .next t ∧ s.onlySlot t (s.idx led)
      ∧ t.slot (s.idx led) = f (s.slot (s.idx led)) :=
  ⟨_, h s, s.onlySlot_modifySlot _ _, Bank.get_modify_self s.slots (s.idx_lt led) f⟩

end Writes

/-- Settles O7: each pair writes different registers, so that its two effects on one slot commute. -/
theorem controlWritesCommute : Obligations.ControlWritesCommute := by
  intro led led' v v' sh ph s
  simp only [List.forall_mem_cons]
  exact ⟨(writesSlot_setrate led v).commute (writesSlot_setscale led' v') (fun _ => rfl) s,
    (writesSlot_setrate led v).commute (writesSlot_settrig led' v') (fun _ => rfl) s,
    (writesSlot_setscale led v).commute (writesSlot_settrig led' v') (fun _ => rfl) s,
    (writesSlot_setrate led v).commute (writesSlot_setpat led' sh ph) (fun _ => rfl) s,
    (writesSlot_setscale led v).commute (writesSlot_setpat led' sh ph) (fun _ => rfl) s,
    (writesSlot_settrig led v).commute (writesSlot_setpat led' sh ph) (fun _ => rfl) s, by nofun⟩

/-! ## What each command does -/

theorem exec_nop (s : State) : exec .nop s = .next s := rfl

/-- Settles O1: a word of opcode 0 decodes to NOP, whatever its other bits. -/
theorem nopLeavesEveryState : Obligations.NopLeavesEveryState := by
  refine ⟨exec_nop, fun s w hop => ?_, by decide⟩
  have hdec : DecodesTo w .nop := .nop hop
  rw [hdec.decode_eq, exec_nop]

/-- `value >> 2` in 8 bits is `value[9:2]` (R101, R102). -/
theorem shiftedCtrl_eq_extractLsb' (n : Nat) (v : Ctrl) : shiftedCtrl n v = v.extractLsb' n 8 := rfl

/-- Settles O3: the write of `rate` and its frame; the operands are the word's fields. -/
theorem setrateStoresQuarterValue : Obligations.SetrateStoresQuarterValue := by
  refine ⟨fun led v s => ?_, fun w hop => ?_⟩
  · rw [← shiftedCtrl_eq_extractLsb']
    exact (writesSlot_setrate led v).stores s
  · have hdec : DecodesTo w _ := .setrate hop
    rw [hdec.decode_eq, dataValue_cmdData, cmdLed]

/-- Settles O4: the write of `scale` and its frame; the operands are the word's fields. -/
theorem setscaleStoresQuarterValue : Obligations.SetscaleStoresQuarterValue := by
  refine ⟨fun led v s => ?_, fun w hop => ?_⟩
  · rw [← shiftedCtrl_eq_extractLsb']
    exact (writesSlot_setscale led v).stores s
  · have hdec : DecodesTo w _ := .setscale hop
    rw [hdec.decode_eq, dataValue_cmdData, cmdLed]

/-- Settles O5: the write of `trig`, unshifted, and its frame; the operands are the word's fields. -/
theorem settrigStoresValueVerbatim : Obligations.SettrigStoresValueVerbatim := by
  refine ⟨fun led v s => (writesSlot_settrig led v).stores s, fun w hop => ?_⟩
  have hdec : DecodesTo w _ := .settrig hop
  rw [hdec.decode_eq, dataValue_cmdData, cmdLed]

end Sys2Proof.Machine
end

section
/-! The pattern commands (spec/41_pattern_commands.md R120 to R127): the pattern word as SETPAT's data, what writing
and reading it back leave, and the two pseudo names as their expansions. -/

namespace Sys2Proof

/-! ## The words of the pattern commands -/

/-- The shape byte of a word is `cmd[31:24]` (R85 b). -/
theorem dataShape_cmdData (w : Cmd) : dataShape (cmdData w) = w.extractLsb' 24 8 := by
  simp only [dataShape, cmdData, BitVec.extractLsb'_extractLsb'_of_le, Nat.reduceAdd, Nat.reduceLeDiff]

/-- The written phase of a word is `cmd[15:0]` (R85 b). -/
theorem dataPhase16_cmdData (w : Cmd) : dataPhase16 (cmdData w) = w.extractLsb' 0 16 := by
  simp only [dataPhase16, cmdData, BitVec.extractLsb'_extractLsb'_of_le, Nat.reduceLeDiff, zero_add]

/-- `(b2 << 8) | b3` as a number (R90). -/
theorem append_eq_ofNat (b2 b3 : Byte) : b2 ++ b3 = BitVec.ofNat 16 (b2.toNat * 256 + b3.toNat) := by
  apply BitVec.eq_of_toNat_eq
  rw [toNat_append_eq, BitVec.toNat_ofNat]
  omega

end Sys2Proof

namespace Sys2Proof.Machine

/-! ## The stored phase -/

/-- `phase16 mod 2048` is `phase16[10:0]` (R120, R121). -/
theorem reducedPhase_eq_extractLsb' (ph : BitVec 16) : reducedPhase ph = ph.extractLsb' 0 11 := by
  rw [reducedPhase_eq_setWidth, BitVec.setWidth_eq_extractLsb' (by decide)]

/-- A stored phase written back is stored again. -/
@[simp] theorem reducedPhase_setWidth (ph : Phase) : reducedPhase (ph.setWidth 16) = ph := by
  rw [reducedPhase_eq_setWidth, BitVec.setWidth_setWidth_of_le _ (by decide), BitVec.setWidth_eq]

/-! ## The pattern word -/

/-- The pattern word is laid out as SETPAT's data is, the phase zero-extended (R89, R124). -/
theorem patternWord_eq_patData (sl : Slot) : patternWord sl = patData sl.shape (sl.phase.setWidth 16) := by
  apply BitVec.eq_of_toNat_eq
  have hphase := sl.phase.isLt
  simp only [patternWord, toNat_append_eq, patData_toNat, BitVec.extractLsb'_toNat, BitVec.toNat_setWidth,
    BitVec.toNat_ofNat, Nat.shiftRight_eq_div_pow]
  omega

theorem patternWord_toNat (sl : Slot) : (patternWord sl).toNat = sl.shape.toNat * 2 ^ 24 + sl.phase.toNat := by
  rw [patternWord_eq_patData, patData_toNat, BitVec.toNat_setWidth_of_le (by decide)]

/-- A slot's own pattern written back restarts it and leaves its configuration (R125). -/
theorem setPattern_patternWord (sl : Slot) :
    setPattern (dataShape (patternWord sl)) (dataPhase16 (patternWord sl)) sl =
      { sl with counter := sl.phase, cycleCount := 0, changeEnabled := false } := by
  simp [setPattern, patternWord_eq_patData]

/-- A written word reads back with its ignored bits 0 (R125). -/
theorem patternWord_setPattern (w : PatWord) (sl : Slot) :
    patternWord (setPattern (dataShape w) (dataPhase16 w) sl) = w &&& 0xFF0007FF#32 := by
  rw [patternWord_eq_patData]
  exact (and_patMask w).symm

/-! ## What the pattern commands do -/

/-- A pseudo-instruction acts as its expansion (R90, R126, R127). -/
theorem exec_expandPseudo (c : Instr) (s : State) : exec (expandPseudo c) s = exec c s := by
  cases c <;> rfl

/-- SETPAT with the fields of a pattern word as its operands (R85 b, R125). -/
theorem writesSlot_setpat_data (led : Byte) (w : PatWord) :
    WritesSlot (.setpat led (w.extractLsb' 24 8) (w.extractLsb' 0 16)) led
      (setPattern (dataShape w) (dataPhase16 w)) :=
  writesSlot_setpat led _ _

/-- Settles O9: SETPAT is the write `setPattern` of the slot addressed; the operands are the word's fields. -/
theorem setpatRestartsTheSlot : Obligations.SetpatRestartsTheSlot := by
  refine ⟨fun led sh ph s => ?_, fun w hop => ?_⟩
  · rw [← reducedPhase_eq_extractLsb']
    exact (writesSlot_setpat led sh ph).stores s
  · have hdec : DecodesTo w _ := .setpat hop
    rw [hdec.decode_eq, dataShape_cmdData, dataPhase16_cmdData, cmdLed]

/-- Settles O10: the answer is the pattern word of the slot addressed, as a number by its fields. -/
theorem rdpatAnswersThePatternWord : Obligations.RdpatAnswersThePatternWord := by
  refine ⟨fun led s => ⟨_, exec_rdpat led s, patternWord_toNat _⟩, fun w hop => ?_⟩
  have hdec : DecodesTo w _ := .rdpat hop
  rw [hdec.decode_eq, cmdLed]

/-- Settles O12: reading, then writing, is `setPattern` of a slot's own pattern word; writing, then reading, is the
pattern word of a slot just written. -/
theorem patternRoundTrip : Obligations.PatternRoundTrip := by
  refine ⟨fun led s => ?_, fun led w s => ?_⟩
  · have hread := exec_rdpat led s
    obtain ⟨u, hwrite, -, hslot⟩ := (writesSlot_setpat_data led (patternWord (s.addressed led))).stores
      (s.respond (patternWord (s.addressed led)))
    have hrestart : u.slot (led.toNat % s.numLeds) = _ := hslot.trans (setPattern_patternWord (s.addressed led))
    refine ⟨_, _, u, hread, rfl, hwrite, ?_⟩
    rw [hrestart]
    exact ⟨rfl, rfl, rfl, rfl, rfl⟩
  · obtain ⟨t, hwrite, ⟨hnum, -⟩, hslot⟩ := (writesSlot_setpat_data led w).stores s
    have hidx : t.idx led = s.idx led := congrArg (led.toNat % ·) hnum
    refine ⟨t, _, hwrite, exec_rdpat led t, ?_⟩
    rw [State.respond_rsp, hidx, hslot, patternWord_setPattern]

/-- Settles O11: executing a pseudo-instruction and decoding its word both give its expansion. -/
theorem pseudoInstructionsActAsTheirCommands : Obligations.PseudoInstructionsActAsTheirCommands := by
  refine ⟨fun led b0 b1 b2 b3 s => ?_, fun led s => ?_⟩
  · rw [← append_eq_ofNat]
    have hexpand := exec_expandPseudo (.ldpat led b0 b1 b2 b3) s
    exact ⟨_, hexpand.symm, writesSlot_setpat led b0 (b2 ++ b3) s, decode_encode _⟩
  · have hexpand := exec_expandPseudo (.encpat led) s
    exact ⟨_, hexpand.symm, exec_rdpat led s, decode_encode _⟩

end Sys2Proof.Machine
end

section
/-! What a TICK makes of one slot (spec/42_tick_gate_advance.md R140 to R151), in the words of the statements: the
enable, the counter, the miss count and the emission after it. -/

namespace Sys2Proof.Machine

/-! ## The enable of a slot by its mode -/

theorem Slot.enabled_iff_of_oneshot {sl : Slot} (h : trigMode sl.shape = .oneshot) :
    sl.enabled ↔ sl.changeEnabled = true ∨ sl.rising := by
  simp [Slot.enabled, h]

theorem Slot.enabled_iff_of_gate {sl : Slot} (h : trigMode sl.shape ≠ .oneshot) :
    sl.enabled ↔ 512 ≤ sl.trig.toNat := by
  simp [Slot.enabled, h]

/-! ## The registers of passes 1 and 2 after a TICK -/

section Registers

variable {sl : Slot} (r : RandomPort)

/-- A slot is left enabled where it was allowed to advance, unless its shot ended (R142, R143, R147, R148). -/
theorem tickSlot_changeEnabled_iff :
    (tickSlot sl r).1.changeEnabled = true ↔
      sl.enabled ∧ (trigMode sl.shape = .oneshot → ¬(sl.sumWraps ∧ sl.endsPattern)) := by
  rw [tickSlot_changeEnabled, afterPass2_changeEnabled, Bool.and_eq_true, Bool.not_eq_true', ← Bool.not_eq_true,
    Bool.and_eq_true, Bool.and_eq_true, decide_eq_true_iff, gateSlot_enabled_iff, wrapsNow_iff, lastCycle_iff,
    Slot.wraps]
  tauto

theorem tickSlot_changeEnabled_of_not_enabled (h : ¬sl.enabled) :
    (tickSlot sl r).1.changeEnabled = false := by
  rw [← Bool.not_eq_true, tickSlot_changeEnabled_iff]
  exact fun hafter => h hafter.1

theorem tickSlot_prevTrig_of_oneshot (h : trigMode sl.shape = .oneshot) :
    (tickSlot sl r).1.prevTrig = sl.trig := by
  rw [tickSlot_prevTrig, gateSlot_oneshot sl h]

theorem tickSlot_prevTrig_of_gate (h : trigMode sl.shape ≠ .oneshot) :
    (tickSlot sl r).1.prevTrig = sl.prevTrig := by
  rw [tickSlot_prevTrig, gateSlot_gate sl h]

/-- A TICK consumes the edge it sees: the copy in `prevTrig` is as high as `trig` (R142). -/
theorem not_rising_tickSlot (h : trigMode sl.shape = .oneshot) : ¬(tickSlot sl r).1.rising := by
  rw [Slot.rising, tickSlot_prevTrig_of_oneshot r h, tickSlot_trig]
  omega

theorem tickSlot_counter_of_enabled (h : sl.enabled) :
    (tickSlot sl r).1.counter.toNat = (sl.counter.toNat + sl.rate.toNat) % 2048 := by
  rw [tickSlot_counter, afterPass2_counter, if_pos ((gateSlot_enabled_iff sl).mpr h)]
  rfl

theorem tickSlot_counter_of_not_sumWraps (h : sl.enabled) (hs : ¬sl.sumWraps) :
    (tickSlot sl r).1.counter.toNat = sl.counter.toNat + sl.rate.toNat := by
  rw [tickSlot_counter_of_enabled r h]
  exact Nat.mod_eq_of_lt (Nat.lt_of_not_le hs)

/-- A wrap leaves the overshoot, which is below `rate` because the counter was below a cycle (R145). -/
theorem tickSlot_counter_of_wraps (h : sl.wraps) :
    (tickSlot sl r).1.counter.toNat + 2048 = sl.counter.toNat + sl.rate.toNat
      ∧ (tickSlot sl r).1.counter.toNat < sl.rate.toNat := by
  obtain ⟨hen, hs⟩ := h
  have hcounter := sl.counter.isLt
  have hrate := sl.rate.isLt
  rw [tickSlot_counter_of_enabled r hen]
  unfold Slot.sumWraps at hs
  omega

theorem tickSlot_counter_of_not_enabled (h : ¬sl.enabled) : (tickSlot sl r).1.counter = sl.counter := by
  apply BitVec.eq_of_toNat_eq
  rw [tickSlot_counter, afterPass2_counter, if_neg (by rwa [gateSlot_enabled_iff])]

theorem tickSlot_cycleCount_of_not_wraps (h : ¬sl.wraps) :
    (tickSlot sl r).1.cycleCount = sl.cycleCount := by
  rw [tickSlot_cycleCount, afterPass2_cycleCount, if_neg (by rwa [wrapsNow_iff])]

theorem tickSlot_cycleCount_of_endsPattern (h : sl.wraps) (he : sl.endsPattern) :
    (tickSlot sl r).1.cycleCount = 0 := by
  rw [tickSlot_cycleCount, afterPass2_cycleCount, if_pos ((wrapsNow_iff sl).mpr h),
    if_pos ((lastCycle_iff sl).mpr he)]

/-- Before the last miss cycle the count is below 3, so that one more fits its two bits (R39 b, R147). -/
theorem tickSlot_cycleCount_of_not_endsPattern (h : sl.wraps) (hb : sl.missBounded) (he : ¬sl.endsPattern) :
    (tickSlot sl r).1.cycleCount.toNat = sl.cycleCount.toNat + 1 := by
  have hlt : sl.cycleCount.toNat < missLen sl.shape := Nat.lt_of_le_of_ne hb fun e => he (.inr e)
  have hlen := missLen_le sl.shape
  rw [tickSlot_cycleCount, afterPass2_cycleCount, if_pos ((wrapsNow_iff sl).mpr h),
    if_neg (by rwa [lastCycle_iff])]
  exact BitVec.toNat_add_of_lt (show sl.cycleCount.toNat + 1 < 4 by omega)

end Registers

/-! ## What a TICK emits -/

section Emission

variable {sl : Slot} {r : RandomPort}

theorem tickSlot_isForced_iff :
    (tickSlot sl r).1.isForced ↔
      (trigMode sl.shape ≠ .gatechange ∧ (tickSlot sl r).1.changeEnabled = false)
        ∨ (tickSlot sl r).1.cycleCount ≠ 0 := by
  rw [← forcedZero_iff, forcedZero_eq_mode, tickSlot_shape]
  simp only [Bool.or_eq_true, Bool.and_eq_true, decide_eq_true_iff, Bool.not_eq_true']

theorem emitsZero_tickSlot (h : (tickSlot sl r).1.isForced) : (tickSlot sl r).1.emitsZero := by
  rw [← forcedZero_iff, tickSlot_forcedZero] at h
  rw [tickSlot_forced sl r h]
  exact ⟨rfl, rfl⟩

theorem showsWaveform_tickSlot (h : ¬(tickSlot sl r).1.isForced) : (tickSlot sl r).1.showsWaveform := by
  intro row hm
  rw [tickSlot_shape] at hm
  rw [← forcedZero_iff, tickSlot_forcedZero, Bool.not_eq_true] at h
  rw [tickSlot_row sl r h hm]
  simp

/-- Outside GATECHANGE mode a slot is dark while it is not enabled (R171). -/
theorem emitsZero_of_disabled (hmode : trigMode sl.shape ≠ .gatechange)
    (hce : (tickSlot sl r).1.changeEnabled = false) : (tickSlot sl r).1.emitsZero :=
  emitsZero_tickSlot (tickSlot_isForced_iff.mpr (.inl ⟨hmode, hce⟩))

/-- Every slot is dark in a miss cycle (R171). -/
theorem emitsZero_of_missCycle (hcc : (tickSlot sl r).1.cycleCount ≠ 0) : (tickSlot sl r).1.emitsZero :=
  emitsZero_tickSlot (tickSlot_isForced_iff.mpr (.inr hcc))

/-- A slot outside its miss cycles shows its waveform where it is enabled, and in GATECHANGE mode anyway. -/
theorem showsWaveform_of_live (h : trigMode sl.shape = .gatechange ∨ (tickSlot sl r).1.changeEnabled = true)
    (hcc : (tickSlot sl r).1.cycleCount = 0) : (tickSlot sl r).1.showsWaveform := by
  refine showsWaveform_tickSlot fun hforced => ?_
  obtain ⟨hmode, hce⟩ | hmiss := tickSlot_isForced_iff.mp hforced
  · obtain hgate | hlive := h
    · exact hmode hgate
    · exact Bool.false_ne_true (hce.symm.trans hlive)
  · exact hmiss hcc

end Emission

/-! ## What a slot does in a TICK

It is not enabled, it advances (outside or inside a miss cycle), it counts a miss cycle, or its pattern ends. -/

section Cases

variable {sl : Slot} (r : RandomPort)

theorem disabled_isDark (hmode : trigMode sl.shape ≠ .gatechange) (hoff : ¬sl.enabled) :
    (tickSlot sl r).1.changeEnabled = false ∧ (tickSlot sl r).1.cycleCount = sl.cycleCount
      ∧ (tickSlot sl r).1.emitsZero := by
  have hce := tickSlot_changeEnabled_of_not_enabled r hoff
  exact ⟨hce, tickSlot_cycleCount_of_not_wraps r fun hw => hoff hw.1, emitsZero_of_disabled hmode hce⟩

theorem advancing_isLive (hen : sl.enabled) (hs : ¬sl.sumWraps) :
    (tickSlot sl r).1.changeEnabled = true ∧ (tickSlot sl r).1.cycleCount = sl.cycleCount :=
  ⟨(tickSlot_changeEnabled_iff r).mpr ⟨hen, fun _ hend => hs hend.1⟩,
    tickSlot_cycleCount_of_not_wraps r fun hw => hs hw.2⟩

theorem advancing_showsWaveform (hen : sl.enabled) (hs : ¬sl.sumWraps) (h0 : sl.cycleCount = 0) :
    (tickSlot sl r).1.changeEnabled = true ∧ (tickSlot sl r).1.cycleCount = 0
      ∧ (tickSlot sl r).1.showsWaveform := by
  obtain ⟨hce, hcc⟩ := advancing_isLive r hen hs
  exact ⟨hce, hcc.trans h0, showsWaveform_of_live (.inr hce) (hcc.trans h0)⟩

theorem advancing_isDark_of_missCycle (hen : sl.enabled) (hs : ¬sl.sumWraps) (hmiss : sl.cycleCount ≠ 0) :
    (tickSlot sl r).1.changeEnabled = true ∧ (tickSlot sl r).1.cycleCount = sl.cycleCount
      ∧ (tickSlot sl r).1.emitsZero := by
  obtain ⟨hce, hcc⟩ := advancing_isLive r hen hs
  exact ⟨hce, hcc, emitsZero_of_missCycle (hcc.trans_ne hmiss)⟩

/-- A wrap before the last miss cycle begins another one. -/
theorem wrapping_counts (hw : sl.wraps) (hlt : sl.cycleCount.toNat < missLen sl.shape) :
    (tickSlot sl r).1.changeEnabled = true ∧ (tickSlot sl r).1.cycleCount.toNat = sl.cycleCount.toNat + 1
      ∧ (tickSlot sl r).1.emitsZero := by
  have hmore : ¬sl.endsPattern := by
    unfold Slot.endsPattern
    omega
  have hcc := tickSlot_cycleCount_of_not_endsPattern r hw hlt.le hmore
  refine ⟨(tickSlot_changeEnabled_iff r).mpr ⟨hw.1, fun _ hend => hmore hend.2⟩, hcc,
    emitsZero_of_missCycle fun h0 => ?_⟩
  rw [h0] at hcc
  exact absurd hcc.symm (Nat.succ_ne_zero _)

theorem oneshot_ends (hmode : trigMode sl.shape = .oneshot) (hw : sl.wraps) (he : sl.endsPattern) :
    (tickSlot sl r).1.changeEnabled = false ∧ (tickSlot sl r).1.cycleCount = 0
      ∧ (tickSlot sl r).1.emitsZero := by
  have hce : (tickSlot sl r).1.changeEnabled = false := by
    rw [← Bool.not_eq_true, tickSlot_changeEnabled_iff]
    exact fun h => h.2 hmode ⟨hw.2, he⟩
  exact ⟨hce, tickSlot_cycleCount_of_endsPattern r hw he, emitsZero_of_disabled (by simp [hmode]) hce⟩

end Cases

end Sys2Proof.Machine
end

section
/-! TICK over the slot file, and what passes 1 and 2 do to each slot (spec/42_tick_gate_advance.md R140 to R151). -/

namespace Sys2Proof.Machine

/-- TICK completes, and every slot is after it what `tickSlot` makes of it from some source. -/
theorem exec_tick_slots (s : State) : ∃ t, exec .tick s = .next t ∧ t.numLeds = s.numLeds
    ∧ ∀ i, i < s.numLeds → ∃ r, t.slot i = (tickSlot (s.slot i) r).1 := by
  obtain ⟨t, ht, hn, -, -, -, hslot⟩ := execTick_spec s
  exact ⟨t, ht, hn, fun i hi => ⟨_, hslot i hi⟩⟩

/-- Settles O13: the three passes may be fused per slot, each slot finding the source as the draws of the slots
before it leave it. -/
theorem tickIsThreePassesOfEverySlot : Obligations.TickIsThreePassesOfEverySlot :=
  execTick_spec

/-- Settles O14: no pass writes the configuration of a slot. -/
theorem tickWritesNoConfiguration : Obligations.TickWritesNoConfiguration := by
  intro s
  obtain ⟨t, ht, -, hslot⟩ := exec_tick_slots s
  refine ⟨t, ht, fun i hi => ?_⟩
  obtain ⟨r, hr⟩ := hslot i hi
  rw [hr]
  exact ⟨tickSlot_shape _ r, tickSlot_phase _ r, tickSlot_rate _ r, tickSlot_scale _ r, tickSlot_trig _ r⟩

/-- Settles O15: pass 1 latches the edge and copies `trig`, and pass 2 clears the latch only where the shot ends. -/
theorem oneshotLatchesTheEdge : Obligations.OneshotLatchesTheEdge := by
  intro s
  obtain ⟨t, ht, -, hslot⟩ := exec_tick_slots s
  refine ⟨t, ht, fun i hi hmode => ?_⟩
  obtain ⟨r, hr⟩ := hslot i hi
  rw [hr, tickSlot_changeEnabled_iff, Slot.enabled_iff_of_oneshot hmode]
  exact ⟨tickSlot_prevTrig_of_oneshot r hmode, and_congr_right fun _ => forall_prop_of_true hmode⟩

/-- Settles O16: pass 1 takes the level, and in gate mode no pass clears it or writes `prevTrig`. -/
theorem gateFollowsTheTriggerLevel : Obligations.GateFollowsTheTriggerLevel := by
  intro s
  obtain ⟨t, ht, -, hslot⟩ := exec_tick_slots s
  refine ⟨t, ht, fun i hi hmode => ?_⟩
  obtain ⟨r, hr⟩ := hslot i hi
  rw [hr, tickSlot_changeEnabled_iff, Slot.enabled_iff_of_gate hmode]
  exact ⟨and_iff_left fun h => absurd h hmode, tickSlot_prevTrig_of_gate r hmode⟩

/-- Settles O17: the counter where the slot advances, wraps, or is not enabled. -/
theorem counterAdvancesAndKeepsOvershoot : Obligations.CounterAdvancesAndKeepsOvershoot := by
  intro s
  obtain ⟨t, ht, -, hslot⟩ := exec_tick_slots s
  refine ⟨t, ht, fun i hi => ?_⟩
  obtain ⟨r, hr⟩ := hslot i hi
  rw [hr]
  exact ⟨Nat.le_of_lt_succ (advancedSum_lt (s.slot i)), tickSlot_counter_of_not_sumWraps r,
    fun hen hs => tickSlot_counter_of_wraps r ⟨hen, hs⟩, tickSlot_counter_of_not_enabled r⟩

/-- Settles O18: the miss count at the wrap that ends the pattern, at a wrap before it, and without a wrap. -/
theorem missCyclesAreCountedAtWraps : Obligations.MissCyclesAreCountedAtWraps := by
  intro s
  obtain ⟨t, ht, -, hslot⟩ := exec_tick_slots s
  refine ⟨t, ht, fun i hi => ?_⟩
  obtain ⟨r, hr⟩ := hslot i hi
  rw [hr, tickSlot_changeEnabled_iff]
  refine ⟨fun hw he => ⟨tickSlot_cycleCount_of_endsPattern r hw he, ?_⟩,
    fun hw hb he => ⟨tickSlot_cycleCount_of_not_endsPattern r hw hb he, hw.1, fun _ h => he h.2⟩,
    tickSlot_cycleCount_of_not_wraps r⟩
  exact ⟨fun h hmode => h.2 hmode ⟨hw.2, he⟩, fun hmode => ⟨hw.1, fun h => absurd h hmode⟩⟩

/-- Settles O20: a closed gate is not enabled, so nothing moves; whether its output is forced is then decided by the
mode and the miss count. -/
theorem closedGateFreezesOrBlanks : Obligations.ClosedGateFreezesOrBlanks := by
  intro s
  obtain ⟨t, ht, -, hslot⟩ := exec_tick_slots s
  refine ⟨t, ht, fun i hi hlow => ?_⟩
  obtain ⟨r, hr⟩ := hslot i hi
  have hclosed (hmode : trigMode (s.slot i).shape ≠ .oneshot) : ¬(s.slot i).enabled := by
    rw [Slot.enabled_iff_of_gate hmode]
    exact Nat.not_le.mpr hlow
  rw [hr]
  refine ⟨fun hmode => ?_, fun hmode => ?_⟩
  · have hoff : ¬(s.slot i).enabled := hclosed (by simp [hmode])
    have hcc := tickSlot_cycleCount_of_not_wraps r fun hw => hoff hw.1
    exact ⟨tickSlot_counter_of_not_enabled r hoff, hcc,
      fun h0 => showsWaveform_of_live (.inl hmode) (hcc.trans h0),
      fun h0 => emitsZero_of_missCycle (hcc.trans_ne h0)⟩
  · have hoff : ¬(s.slot i).enabled := hclosed (by simp [hmode])
    obtain ⟨-, hcc, hdark⟩ := disabled_isDark r (by simp [hmode]) hoff
    exact ⟨tickSlot_counter_of_not_enabled r hoff, hcc, hdark⟩

/-- Settles O19: an idle slot without an edge is not enabled, an edge or a live shot enables it; each row is then one
of the cases of the slot. -/
theorem oneshotStateMachine : Obligations.OneshotStateMachine := by
  intro s
  obtain ⟨t, ht, -, hslot⟩ := exec_tick_slots s
  refine ⟨t, ht, fun i hi hmode hrest => ?_⟩
  obtain ⟨r, hr⟩ := hslot i hi
  have hen := Slot.enabled_iff_of_oneshot hmode
  rw [hr]
  refine ⟨fun hidle hedge => ?_, fun hidle hedge hs => ?_, fun hidle hedge hs hlen => ?_,
    fun hidle hedge hs hlen => ?_, fun hlive h0 hs => ?_, fun hlive hlt hs => ?_, fun hlive hmiss hs => ?_,
    fun hlive heq hs => ?_⟩
  · have hoff : ¬(s.slot i).enabled := by simp [hen, hidle, hedge]
    rw [← hrest hmode hidle]
    exact disabled_isDark r (by simp [hmode]) hoff
  · exact advancing_showsWaveform r (hen.mpr (.inr hedge)) hs (hrest hmode hidle)
  · exact oneshot_ends r hmode ⟨hen.mpr (.inr hedge), hs⟩ (.inl hlen)
  · have h0 : (s.slot i).cycleCount.toNat = 0 := congrArg BitVec.toNat (hrest hmode hidle)
    obtain ⟨hce, hcc, hdark⟩ := wrapping_counts r ⟨hen.mpr (.inr hedge), hs⟩ (h0 ▸ hlen)
    exact ⟨hce, BitVec.eq_of_toNat_eq (hcc.trans (by rw [h0]; rfl)), hdark⟩
  · exact advancing_showsWaveform r (hen.mpr (.inl hlive)) hs h0
  · exact wrapping_counts r ⟨hen.mpr (.inl hlive), hs⟩ hlt
  · exact advancing_isDark_of_missCycle r (hen.mpr (.inl hlive)) hs hmiss
  · exact oneshot_ends r hmode ⟨hen.mpr (.inl hlive), hs⟩ (.inr heq)

end Sys2Proof.Machine
end

section
/-! A slot's TICK as a lane of its own (spec/42_tick_gate_advance.md R153): of everything outside the slot it depends
on the byte drawn alone. -/

namespace Sys2Proof.Machine

section Lane

variable {sl : Slot} (r r' : RandomPort)

/-- A slot that asks for a draw emits the level of the byte it is given. -/
theorem tickSlot_of_asksDraw (h : asksDraw sl = true) :
    (tickSlot sl r).1 = emit (levelOf sl.shape sl.scale r.draw.1) (afterPass2 sl).slot := by
  rw [asksDraw_eq, Bool.and_eq_true, Bool.and_eq_true, Bool.not_eq_true', decide_eq_true_iff] at h
  obtain ⟨⟨hforced, hrandom⟩, hwraps⟩ := h
  rw [tickSlot_draw sl r hforced hrandom hwraps]

/-- A slot that asks for none does the same whatever the source. -/
theorem tickSlot_eq_of_not_asksDraw (h : asksDraw sl = false) : (tickSlot sl r).1 = (tickSlot sl r').1 := by
  rcases tickSlot_cases sl r with ⟨hf, e⟩ | ⟨hf, row, hm, e⟩ | ⟨hf, hm, hw, -⟩ | ⟨hf, hm, hw, e⟩
  · rw [e, tickSlot_forced sl r' hf]
  · rw [e, tickSlot_row sl r' hf hm]
  · rw [asksDraw_eq, hf, hm, hw] at h
    exact absurd h (by decide)
  · rw [e, tickSlot_hold sl r' hf hm hw]

end Lane

/-- Settles O30: the two TICKs run the one slot from two sources, which only the level of a drawn byte can tell
apart. -/
theorem slotsAreIndependentLanes : Obligations.SlotsAreIndependentLanes := by
  intro s s' i hi hi' hslot
  obtain ⟨t, ht, -, -, -, -, hafter⟩ := execTick_spec s
  obtain ⟨t', ht', -, -, -, -, hafter'⟩ := execTick_spec s'
  refine ⟨t, t', ht, ht', ?_, ?_⟩
  · rw [State.drawsAt_iff, State.drawsAt_iff, hslot]
  · rw [State.noDrawAt_iff, hafter i hi, hafter' i hi', hslot]
    cases hdraw : asksDraw (s'.slot i) with
    | true =>
      rw [tickSlot_of_asksDraw _ hdraw, tickSlot_of_asksDraw _ hdraw]
      exact ⟨rfl, nofun, fun hbyte => congrArg (fun b => emit (levelOf _ _ b) _) hbyte⟩
    | false =>
      rw [tickSlot_eq_of_not_asksDraw _ (s'.random.afterDraws (s'.drawsBefore i)) hdraw]
      exact ⟨rfl, fun _ => rfl, fun _ => rfl⟩

end Sys2Proof.Machine
end

section
/-! Runs of TICKs (spec/42_tick_gate_advance.md R150, spec/70_reset_and_hazards.md R241): each slot's own run, and by
induction over it the open gate, the idle one-shot, and the shot of one cycle. -/

namespace Sys2Proof.Machine

/-! ## The run of one slot -/

/-- `SlotTicks sl n sl'`: the slot `sl` may be `sl'` after `n` TICKs. -/
inductive SlotTicks (sl : Slot) : Nat → Slot → Prop where
  | zero : SlotTicks sl 0 sl
  | succ {n : Nat} {mid : Slot} (h : SlotTicks sl n mid) (r : RandomPort) :
      SlotTicks sl (n + 1) (tickSlot mid r).1

/-- A run of TICKs ends with a TICK. -/
theorem ticks_succ {n : Nat} {s t u : State} (hrun : ticks n s = .next t) (hlast : exec .tick t = .next u) :
    ticks (n + 1) s = .next u := by
  induction n generalizing s with
  | zero =>
    cases hrun
    simp [ticks, hlast]
  | succ n ih =>
    obtain ⟨v, hv, -⟩ := exec_tick_slots s
    rw [ticks, hv] at hrun ⊢
    exact ih hrun

/-- Any number of TICKs completes, and is on every slot a run of that slot. -/
theorem ticks_slots (n : Nat) (s : State) : ∃ t, ticks n s = .next t ∧ t.numLeds = s.numLeds
    ∧ ∀ i, i < s.numLeds → SlotTicks (s.slot i) n (t.slot i) := by
  induction n with
  | zero => exact ⟨s, rfl, rfl, fun _ _ => .zero⟩
  | succ n ih =>
    obtain ⟨t, hrun, hn, hslots⟩ := ih
    obtain ⟨u, hlast, hn', hslot⟩ := exec_tick_slots t
    refine ⟨u, ticks_succ hrun hlast, hn'.trans hn, fun i hi => ?_⟩
    obtain ⟨r, hr⟩ := hslot i (hn ▸ hi)
    rw [hr]
    exact (hslots i hi).succ r

section Runs

variable {n : Nat} {sl sl' : Slot} (h : SlotTicks sl n sl')

include h

theorem SlotTicks.shape_eq : sl'.shape = sl.shape := by
  induction h with
  | zero => rfl
  | succ _ r ih => rw [tickSlot_shape, ih]

theorem SlotTicks.rate_eq : sl'.rate = sl.rate := by
  induction h with
  | zero => rfl
  | succ _ r ih => rw [tickSlot_rate, ih]

theorem SlotTicks.trig_eq : sl'.trig = sl.trig := by
  induction h with
  | zero => rfl
  | succ _ r ih => rw [tickSlot_trig, ih]

/-- An open gate is open for the whole run, so that the run adds `rate` once per TICK. -/
theorem SlotTicks.counter_of_open_gate (hmode : trigMode sl.shape ≠ .oneshot) (hopen : 512 ≤ sl.trig.toNat) :
    sl'.counter.toNat = (sl.counter.toNat + n * sl.rate.toNat) % 2048 := by
  induction h with
  | zero =>
    rw [Nat.zero_mul, Nat.add_zero]
    exact (Nat.mod_eq_of_lt sl.counter.isLt).symm
  | @succ n mid hrun r ih =>
    have hen : mid.enabled := by
      rwa [Slot.enabled_iff_of_gate (by rwa [hrun.shape_eq]), hrun.trig_eq]
    rw [tickSlot_counter_of_enabled r hen, ih, hrun.rate_eq, Nat.mod_add_mod, Nat.succ_mul, Nat.add_assoc]

end Runs

/-- Settles O31: an open gate's run, slot by slot. -/
theorem openGateRunsAtItsRate : Obligations.OpenGateRunsAtItsRate := by
  intro n s
  obtain ⟨t, ht, -, hslots⟩ := ticks_slots n s
  exact ⟨t, ht, fun i hi => (hslots i hi).counter_of_open_gate⟩

/-! ## The idle one-shot -/

/-- An idle one-shot that sees no rising edge. -/
structure Slot.Waiting (sl : Slot) : Prop where
  mode : trigMode sl.shape = .oneshot
  idle : sl.changeEnabled = false
  noEdge : ¬sl.rising

theorem Slot.Waiting.not_enabled {sl : Slot} (h : sl.Waiting) : ¬sl.enabled := by
  simp [Slot.enabled_iff_of_oneshot h.mode, h.idle, h.noEdge]

/-- A one-shot that a TICK leaves idle waits: the TICK has consumed the edge. -/
theorem Slot.waiting_tickSlot {sl : Slot} {r : RandomPort} (hmode : trigMode sl.shape = .oneshot)
    (hce : (tickSlot sl r).1.changeEnabled = false) : (tickSlot sl r).1.Waiting :=
  ⟨by rwa [tickSlot_shape], hce, not_rising_tickSlot r hmode⟩

theorem Slot.Waiting.tick {sl : Slot} (h : sl.Waiting) (r : RandomPort) :
    (tickSlot sl r).1.Waiting ∧ (tickSlot sl r).1.counter = sl.counter ∧ (tickSlot sl r).1.emitsZero := by
  obtain ⟨hce, -, hdark⟩ := disabled_isDark r (by simp [h.mode]) h.not_enabled
  exact ⟨Slot.waiting_tickSlot h.mode hce, tickSlot_counter_of_not_enabled r h.not_enabled, hdark⟩

theorem SlotTicks.waiting {n : Nat} {sl sl' : Slot} (h : SlotTicks sl n sl') (hw : sl.Waiting) :
    sl'.Waiting ∧ sl'.counter = sl.counter ∧ (0 < n → sl'.emitsZero) := by
  induction h with
  | zero => exact ⟨hw, rfl, fun h0 => absurd h0 (Nat.lt_irrefl 0)⟩
  | succ _ r ih =>
    obtain ⟨hmid, hcounter, -⟩ := ih
    obtain ⟨hafter, hstay, hdark⟩ := hmid.tick r
    exact ⟨hafter, hstay.trans hcounter, fun _ => hdark⟩

/-- Settles O32: a waiting slot waits through every TICK. -/
theorem idleOneshotWaitsForAnEdge : Obligations.IdleOneshotWaitsForAnEdge := by
  intro n s
  obtain ⟨t, ht, -, hslots⟩ := ticks_slots n s
  refine ⟨t, ht, fun i hi hmode hidle hedge => ?_⟩
  obtain ⟨hwaiting, hcounter, hdark⟩ := (hslots i hi).waiting ⟨hmode, hidle, hedge⟩
  exact ⟨hwaiting.idle, hcounter, hdark⟩

/-! ## The shot of one cycle -/

/-- A one-shot without MISS flag that is in its cycle, or begins it at the next TICK. -/
structure Slot.Firing (sl : Slot) : Prop where
  mode : trigMode sl.shape = .oneshot
  noMiss : missLen sl.shape = 0
  live : sl.cycleCount = 0
  enabled : sl.enabled

theorem Slot.Firing.tick {sl : Slot} (h : sl.Firing) (hs : ¬sl.sumWraps) (r : RandomPort) :
    (tickSlot sl r).1.Firing ∧ (tickSlot sl r).1.changeEnabled = true ∧ (tickSlot sl r).1.showsWaveform
      ∧ (tickSlot sl r).1.counter.toNat = sl.counter.toNat + sl.rate.toNat := by
  obtain ⟨hce, hcc, hshows⟩ := advancing_showsWaveform r h.enabled hs h.live
  have hmode : trigMode (tickSlot sl r).1.shape = .oneshot := by rw [tickSlot_shape, h.mode]
  refine ⟨⟨hmode, by rw [tickSlot_shape, h.noMiss], hcc, ?_⟩, hce, hshows,
    tickSlot_counter_of_not_sumWraps r h.enabled hs⟩
  exact (Slot.enabled_iff_of_oneshot hmode).mpr (.inl hce)

theorem Slot.Firing.last_tick {sl : Slot} (h : sl.Firing) (hs : sl.sumWraps) (r : RandomPort) :
    (tickSlot sl r).1.Waiting ∧ (tickSlot sl r).1.emitsZero
      ∧ (tickSlot sl r).1.counter.toNat < sl.rate.toNat := by
  obtain ⟨hce, -, hdark⟩ := oneshot_ends r h.mode ⟨h.enabled, hs⟩ (.inl h.noMiss)
  exact ⟨Slot.waiting_tickSlot h.mode hce, hdark, (tickSlot_counter_of_wraps r ⟨h.enabled, hs⟩).2⟩

section Shot

variable {n : Nat} {sl sl' : Slot} (h : SlotTicks sl n sl') (hf : sl.Firing)

include h hf

/-- The slot fires while its sum is below a cycle; after each TICK of that it is seen live. -/
theorem SlotTicks.firing (hlt : sl.counter.toNat + n * sl.rate.toNat < 2048) :
    sl'.Firing ∧ sl'.counter.toNat = sl.counter.toNat + n * sl.rate.toNat
      ∧ (0 < n → sl'.changeEnabled = true ∧ sl'.showsWaveform) := by
  induction h with
  | zero => exact ⟨hf, by rw [Nat.zero_mul, Nat.add_zero], fun h0 => absurd h0 (Nat.lt_irrefl 0)⟩
  | @succ n mid hrun r ih =>
    rw [Nat.succ_mul, ← Nat.add_assoc] at hlt ⊢
    obtain ⟨hmid, hcounter, -⟩ := ih (Nat.lt_of_add_right_lt hlt)
    have hs : ¬mid.sumWraps := by
      rw [Slot.sumWraps, hcounter, hrun.rate_eq]
      exact Nat.not_le.mpr hlt
    obtain ⟨hafter, hce, hshows, hcounter'⟩ := hmid.tick hs r
    exact ⟨hafter, by rw [hcounter', hcounter, hrun.rate_eq], fun _ => ⟨hce, hshows⟩⟩

/-- From the TICK that brings the sum to a cycle on, the slot waits, and the overshoot stands in its counter. -/
theorem SlotTicks.spent (hge : 2048 ≤ sl.counter.toNat + n * sl.rate.toNat) :
    sl'.Waiting ∧ sl'.emitsZero ∧ sl'.counter.toNat < sl.rate.toNat := by
  induction h with
  | zero => exact absurd sl.counter.isLt (Nat.not_lt.mpr (by simpa using hge))
  | @succ n mid hrun r ih =>
    rw [Nat.succ_mul, ← Nat.add_assoc] at hge
    rcases Nat.lt_or_ge (sl.counter.toNat + n * sl.rate.toNat) 2048 with hbefore | hafter
    · obtain ⟨hmid, hcounter, -⟩ := hrun.firing hf hbefore
      have hs : mid.sumWraps := by rwa [Slot.sumWraps, hcounter, hrun.rate_eq]
      rw [← hrun.rate_eq]
      exact hmid.last_tick hs r
    · obtain ⟨hmid, -, hlow⟩ := ih hafter
      obtain ⟨hwaiting, hstay, hdark⟩ := hmid.tick r
      exact ⟨hwaiting, hdark, hstay ▸ hlow⟩

end Shot

/-- Settles O33: the slot fires until the counter comes to the end of the cycle, and waits from then on. -/
theorem shotRunsOneCycleThenStaysDark : Obligations.ShotRunsOneCycleThenStaysDark := by
  intro n s hpos
  obtain ⟨t, ht, -, hslots⟩ := ticks_slots n s
  refine ⟨t, ht, fun i hi hmode hmiss h0 hstart => ?_⟩
  have hfiring : (s.slot i).Firing := ⟨hmode, hmiss, h0, (Slot.enabled_iff_of_oneshot hmode).mpr hstart⟩
  refine ⟨fun hlt => ?_, fun hge => ?_⟩
  · obtain ⟨-, hcounter, hseen⟩ := (hslots i hi).firing hfiring hlt
    obtain ⟨hce, hshows⟩ := hseen hpos
    exact ⟨hce, hshows, hcounter⟩
  · obtain ⟨hwaiting, hdark, hlow⟩ := (hslots i hi).spent hfiring hge
    exact ⟨hwaiting.idle, hdark, hlow⟩

end Sys2Proof.Machine
end

section
/-! The rows of the ROM as numbers, and the selector (spec/43_tick_output.md R172 to R179). -/

namespace Sys2Proof.Machine

/-! ## The rows on exact numbers -/

theorem romSaw_eq (c : Nat) : romSaw c = c / 8 := Nat.shiftRight_eq_div_pow c 3

theorem romTriangle_rising {c : Nat} (h : c < 1024) : romTriangle c = c / 4 :=
  (if_pos h).trans (Nat.shiftRight_eq_div_pow c 2)

theorem romTriangle_falling {c : Nat} (h : 1024 ≤ c) : romTriangle c = (2047 - c) / 4 :=
  (if_neg (Nat.not_lt.mpr h)).trans (Nat.shiftRight_eq_div_pow (2047 - c) 2)

/-- The falling half is the rising half read backwards (R175). -/
theorem romTriangle_symm {c : Nat} (h : c < 2048) : romTriangle (2047 - c) = romTriangle c := by
  rcases Nat.lt_or_ge c 1024 with hlow | hhigh
  · rw [romTriangle_rising hlow, romTriangle_falling (by omega), Nat.sub_sub_self (by omega)]
  · rw [romTriangle_falling hhigh, romTriangle_rising (by omega)]

theorem romSquare_high {c : Nat} (h : c < 1024) : romSquare c = 255 := if_pos h

theorem romSquare_low {c : Nat} (h : 1024 ≤ c) : romSquare c = 0 := if_neg (Nat.not_lt.mpr h)

theorem romPulse_high {c : Nat} (h : c < 410) : romPulse c = 255 := if_pos h

theorem romPulse_low {c : Nat} (h : 410 ≤ c) : romPulse c = 0 := if_neg (Nat.not_lt.mpr h)

/-- The step of SPIKE: up to 15 in the first half, and down again in the second (R177). -/
def spikeStep (c : Nat) : Nat := if c < 1024 then c / 64 else 31 - c / 64

theorem spikeStep_le {c : Nat} (h : c < 2048) : spikeStep c ≤ 15 := by
  unfold spikeStep
  split <;> omega

/-- The clamp of SPIKE never acts: the square of the step is at most 225. -/
theorem romSpike_eq {c : Nat} (h : c < 2048) : romSpike c = spikeStep c * spikeStep c ∧ romSpike c ≤ 225 := by
  have hsq : spikeStep c * spikeStep c ≤ 15 * 15 := Nat.mul_le_mul (spikeStep_le h) (spikeStep_le h)
  have hclamp : romSpike c = min (spikeStep c * spikeStep c) 255 := by
    rw [romSpike, show c >>> Config.SPIKE_SHIFT = c / 64 from Nat.shiftRight_eq_div_pow c 6]
    rfl
  rw [hclamp, Nat.min_eq_left (hsq.trans (by decide))]
  exact ⟨rfl, hsq⟩

/-! ## The stored samples -/

/-- No row exceeds a byte, so that the stored sample is the exact value. -/
theorem romValue_lt (row : RomRow) {c : Nat} (h : c < 2048) : romValue row c < 256 := by
  cases row with
  | off => exact Nat.succ_pos _
  | saw => rw [romValue, romSaw_eq]; omega
  | triangle =>
    rw [romValue]
    rcases Nat.lt_or_ge c 1024 with hlow | hhigh
    · rw [romTriangle_rising hlow]; omega
    · rw [romTriangle_falling hhigh]; omega
  | square => rw [romValue, romSquare]; split <;> decide
  | pulse => rw [romValue, romPulse]; split <;> decide
  | spike => exact Nat.lt_of_le_of_lt (romSpike_eq h).2 (by decide)
  | on => exact Nat.lt_succ_self _

@[simp] theorem rom_toNat (row : RomRow) (c : Phase) : (rom row c).toNat = romValue row c.toNat :=
  Nat.mod_eq_of_lt (romValue_lt row c.isLt)

theorem rom_eq_of_romValue {row : RomRow} {c : Phase} {b : Byte} (h : romValue row c.toNat = b.toNat) :
    rom row c = b :=
  BitVec.eq_of_toNat_eq ((rom_toNat row c).trans h)

/-- Settles O26: each row by its formula on exact numbers, which the narrowing to a byte keeps. -/
theorem romRowsFollowTheirFormulas : Obligations.RomRowsFollowTheirFormulas := by
  intro c
  have hc : c.toNat < 2048 := c.isLt
  obtain ⟨hspike, hclamp⟩ := romSpike_eq hc
  have hmirror : (BitVec.ofNat 11 (2047 - c.toNat)).toNat = 2047 - c.toNat :=
    Nat.mod_eq_of_lt (show 2047 - c.toNat < 2048 by omega)
  simp only [rom_toNat, romValue]
  refine ⟨rfl, rfl, rfl, romTriangle_rising, romTriangle_falling, ?_,
    fun h => rom_eq_of_romValue (romSquare_high h), fun h => rom_eq_of_romValue (romSquare_low h),
    fun h => rom_eq_of_romValue (romPulse_high h), fun h => rom_eq_of_romValue (romPulse_low h),
    fun h => ?_, fun h => ?_, hclamp⟩
  · apply rom_eq_of_romValue
    rw [rom_toNat, hmirror]
    exact (romTriangle_symm hc).symm
  · rw [hspike, spikeStep, if_pos h]
  · rw [hspike, spikeStep, if_neg (Nat.not_lt.mpr h)]

/-! ## The selector -/

/-- Settles O27: each code by evaluation, and the last arm of the multiplexer is dead. -/
theorem selectorChoosesOneOfEight : Obligations.SelectorChoosesOneOfEight :=
  ⟨rfl, rfl, rfl, rfl, rfl, rfl, rfl, rfl, muxSelect_assigned⟩

/-- A code that is not RANDOM's is a row's. -/
theorem Slot.exists_row {sl : Slot} (h : ¬sl.selectsRandom) : ∃ row, muxSelect (shapeSel sl.shape) = .row row := by
  cases hm : muxSelect (shapeSel sl.shape) with
  | row row => exact ⟨row, rfl⟩
  | random => exact absurd ((selectsRandom_iff sl).mp hm) h
  | unassigned => exact absurd hm (muxSelect_assigned _)

end Sys2Proof.Machine
end

section
/-! The scaler, the inversion and the floor as numbers (spec/43_tick_output.md R180 to R184). -/

namespace Sys2Proof.Machine

section Scaler

variable (base scale : Byte)

theorem scaled_toNat : (scaled base scale).toNat = base.toNat * scale.toNat / 256 := by
  have hprod : base.toNat * scale.toNat < 256 * 256 := Nat.mul_lt_mul'' base.isLt scale.isLt
  rw [scaled, BitVec.toNat_ofNat, show _ >>> Config.SCALE_OUT_SHIFT = _ from Nat.shiftRight_eq_div_pow _ 8]
  exact Nat.mod_eq_of_lt (Nat.div_lt_of_lt_mul hprod)

theorem scaled_le_base : (scaled base scale).toNat ≤ base.toNat := by
  rw [scaled_toNat, Nat.mul_comm]
  exact Nat.div_le_of_le_mul (Nat.mul_le_mul_right _ scale.isLt.le)

theorem scaled_le_scale : (scaled base scale).toNat ≤ scale.toNat := by
  rw [scaled_toNat]
  exact Nat.div_le_of_le_mul (Nat.mul_le_mul_right _ base.isLt.le)

theorem scaled_le : (scaled base scale).toNat ≤ 254 := by
  have hprod : base.toNat * scale.toNat ≤ 255 * 255 :=
    Nat.mul_le_mul (Nat.le_of_lt_succ base.isLt) (Nat.le_of_lt_succ scale.isLt)
  rw [scaled_toNat]
  omega

/-- With a factor below 255 the product is below `254 * 256`. -/
theorem scaled_eq_254_iff : (scaled base scale).toNat = 254 ↔ base = 255 ∧ scale = 255 := by
  have hbase := base.isLt
  have hscale := scale.isLt
  constructor
  · intro h
    rw [scaled_toNat] at h
    have hb : 255 ≤ base.toNat := by
      by_contra hlt
      have : base.toNat * scale.toNat ≤ 254 * 255 := Nat.mul_le_mul (by omega) (by omega)
      omega
    have hs : 255 ≤ scale.toNat := by
      by_contra hlt
      have : base.toNat * scale.toNat ≤ 255 * 254 := Nat.mul_le_mul (by omega) (by omega)
      omega
    exact ⟨BitVec.eq_of_toNat_eq (show base.toNat = 255 by omega),
      BitVec.eq_of_toNat_eq (show scale.toNat = 255 by omega)⟩
  · rintro ⟨rfl, rfl⟩
    rfl

end Scaler

theorem inverted_of_clear {shape : Byte} (h : shape.getLsbD 3 = false) (v : Byte) : inverted shape v = v :=
  if_neg (by rw [Bool.not_eq_true]; exact h)

theorem inverted_toNat_of_set {shape : Byte} (h : shape.getLsbD 3 = true) (v : Byte) :
    (inverted shape v).toNat = 255 - v.toNat := by
  rw [inverted, if_pos (show shapeFlag shape Config.F_INVERT = true from h)]
  exact Nat.mod_eq_of_lt (show 255 - v.toNat < 256 by omega)

theorem floored_toNat (v : Byte) : (floored v).toNat = max 1 v.toNat := by
  unfold floored
  split
  case isTrue h => rw [h]; rfl
  case isFalse h =>
    have hpos : 0 < v.toNat := Nat.pos_of_ne_zero fun h0 => h (BitVec.eq_of_toNat_eq h0)
    exact (Nat.max_eq_right hpos).symm

section Level

variable {shape : Byte} (scale base : Byte)

theorem levelOf_toNat_of_clear (h : shape.getLsbD 3 = false) :
    (levelOf shape scale base).toNat = max 1 (base.toNat * scale.toNat / 256) := by
  rw [levelOf, floored_toNat, inverted_of_clear h, scaled_toNat]

/-- The floor never acts with INVERT, because the scaled sample is at most 254. -/
theorem levelOf_toNat_of_set (h : shape.getLsbD 3 = true) :
    (levelOf shape scale base).toNat = 255 - base.toNat * scale.toNat / 256 := by
  have hle := scaled_le base scale
  rw [levelOf, floored_toNat, inverted_toNat_of_set h, ← scaled_toNat]
  omega

/-- No level is a zero: that is what the floor is for (R182). -/
theorem levelOf_pos (shape : Byte) : 1 ≤ (levelOf shape scale base).toNat := by
  rw [levelOf, floored_toNat]
  exact Nat.le_max_left _ _

/-- Full brightness needs INVERT (R184). -/
theorem levelOf_le_of_clear (h : shape.getLsbD 3 = false) : (levelOf shape scale base).toNat ≤ 254 := by
  rw [levelOf, floored_toNat, inverted_of_clear h]
  exact Nat.max_le.mpr ⟨by decide, scaled_le base scale⟩

end Level

/-- Settles O28: the scaler's number and its bounds, and the level with and without INVERT. -/
theorem levelIsScaledInvertedFloored : Obligations.LevelIsScaledInvertedFloored := fun shape scale base =>
  ⟨scaled_toNat base scale, scaled_le base scale, scaled_le_base base scale, scaled_le_scale base scale,
    scaled_eq_254_iff base scale, levelOf_toNat_of_clear scale base,
    fun h => ⟨levelOf_toNat_of_set scale base h, levelOf_pos scale base shape⟩⟩

end Sys2Proof.Machine
end

section
/-! What pass 3 emits for a slot and when it draws (spec/43_tick_output.md R170 to R185), in the words of the
statements. -/

namespace Sys2Proof.Machine

/-! ## The emission of one slot -/

section Emission

variable {sl : Slot} {r : RandomPort}

theorem tickSlot_emits_row (hforced : ¬(tickSlot sl r).1.isForced) (hrow : ¬sl.selectsRandom) :
    (tickSlot sl r).1.upd = true ∧ ∃ row, muxSelect (shapeSel sl.shape) = .row row
      ∧ (tickSlot sl r).1.out = levelOf sl.shape sl.scale (rom row (tickSlot sl r).1.counter) := by
  obtain ⟨row, hm⟩ := Slot.exists_row hrow
  obtain ⟨hout, hupd⟩ := showsWaveform_tickSlot hforced row (by rwa [tickSlot_shape])
  rw [tickSlot_shape, tickSlot_scale] at hout
  exact ⟨hupd, row, hm, hout⟩

theorem tickSlot_emits_draw (hforced : ¬(tickSlot sl r).1.isForced) (hrandom : sl.selectsRandom) (hw : sl.wraps) :
    (tickSlot sl r).1.upd = true ∧ (tickSlot sl r).1.out = levelOf sl.shape sl.scale r.draw.1 := by
  rw [tickSlot_of_asksDraw r ((asksDraw_iff sl r).mpr ⟨hforced, hrandom, hw⟩)]
  exact ⟨rfl, rfl⟩

theorem tickSlot_holds (hforced : ¬(tickSlot sl r).1.isForced) (hrandom : sl.selectsRandom) (hw : ¬sl.wraps) :
    (tickSlot sl r).1.upd = false ∧ (tickSlot sl r).1.out = sl.out := by
  rw [← forcedZero_iff, tickSlot_forcedZero, Bool.not_eq_true] at hforced
  rw [← wrapsNow_iff, Bool.not_eq_true] at hw
  rw [tickSlot_hold sl r hforced ((selectsRandom_iff sl).mpr hrandom) hw]
  exact ⟨rfl, afterPass2_out sl⟩

/-- A slot that is not forced emits a level, or is a RANDOM slot that did not wrap and holds (R183). -/
theorem tickSlot_emits_or_holds (hforced : ¬(tickSlot sl r).1.isForced) :
    ((tickSlot sl r).1.upd = true ∧ ∃ base, (tickSlot sl r).1.out = levelOf sl.shape sl.scale base)
    ∨ (sl.selectsRandom ∧ ¬sl.wraps ∧ (tickSlot sl r).1.upd = false ∧ (tickSlot sl r).1.out = sl.out) := by
  by_cases hrandom : sl.selectsRandom
  · by_cases hw : sl.wraps
    · obtain ⟨hupd, hout⟩ := tickSlot_emits_draw hforced hrandom hw
      exact .inl ⟨hupd, _, hout⟩
    · exact .inr ⟨hrandom, hw, tickSlot_holds hforced hrandom hw⟩
  · obtain ⟨hupd, row, -, hout⟩ := tickSlot_emits_row hforced hrandom
    exact .inl ⟨hupd, _, hout⟩

/-- A slot that emits nothing is such a RANDOM slot. -/
theorem holds_of_not_upd (h : (tickSlot sl r).1.upd = false) :
    (¬(tickSlot sl r).1.isForced ∧ sl.selectsRandom ∧ ¬sl.wraps) ∧ (tickSlot sl r).1.out = sl.out := by
  have hforced : ¬(tickSlot sl r).1.isForced := fun hf =>
    Bool.false_ne_true (h.symm.trans (emitsZero_tickSlot hf).2)
  obtain ⟨hupd, -⟩ | ⟨hrandom, hw, -, hout⟩ := tickSlot_emits_or_holds hforced
  · exact absurd (h.symm.trans hupd) Bool.false_ne_true
  · exact ⟨⟨hforced, hrandom, hw⟩, hout⟩

/-- A wrap before the last miss cycle leaves the slot in a miss cycle. -/
theorem isForced_of_wraps_of_not_endsPattern (hw : sl.wraps) (hb : sl.missBounded) (he : ¬sl.endsPattern) :
    (tickSlot sl r).1.isForced := by
  refine tickSlot_isForced_iff.mpr (.inr fun h0 => ?_)
  have hcount := tickSlot_cycleCount_of_not_endsPattern r hw hb he
  rw [h0] at hcount
  exact absurd hcount.symm (Nat.succ_ne_zero _)

/-- A wrap of a one-shot slot leaves it in a miss cycle, or its shot ended. -/
theorem isForced_of_wraps_of_oneshot (hmode : trigMode sl.shape = .oneshot) (hw : sl.wraps) (hb : sl.missBounded) :
    (tickSlot sl r).1.isForced := by
  by_cases he : sl.endsPattern
  · obtain ⟨hce, -, -⟩ := oneshot_ends r hmode hw he
    exact tickSlot_isForced_iff.mpr (.inl ⟨by simp [hmode], hce⟩)
  · exact isForced_of_wraps_of_not_endsPattern hw hb he

end Emission

/-! ## The draw of one slot -/

section Draws

variable (s : State) (i : Nat)

theorem State.noDrawAt_iff_not_drawsAt : s.noDrawAt i ↔ ¬s.drawsAt i := by
  rw [State.noDrawAt_iff, State.drawsAt_iff, Bool.not_eq_true]

/-- R178, whatever source the slot finds: being forced does not depend on the byte drawn. -/
theorem State.drawsAt_iff_tickSlot (r : RandomPort) : s.drawsAt i ↔
    ¬(tickSlot (s.slot i) r).1.isForced ∧ (s.slot i).selectsRandom ∧ (s.slot i).wraps :=
  (s.drawsAt_iff i).trans (asksDraw_iff (s.slot i) r)

end Draws

/-! ## The statements -/

/-- Settles O21: a forced slot emits its zero before the source is asked. -/
theorem forcedZeroBypassesScalerAndDraw : Obligations.ForcedZeroBypassesScalerAndDraw := by
  intro s
  obtain ⟨t, ht, -, hslot⟩ := exec_tick_slots s
  refine ⟨t, ht, fun i hi => ?_⟩
  obtain ⟨r, hr⟩ := hslot i hi
  rw [hr, State.noDrawAt_iff_not_drawsAt, s.drawsAt_iff_tickSlot i r]
  exact fun hforced => ⟨emitsZero_tickSlot hforced, fun ⟨hunforced, _⟩ => hunforced hforced⟩

/-- Settles O22: a selector other than RANDOM's names a row, and such a slot asks for no draw. -/
theorem unforcedSlotEmitsItsRomSample : Obligations.UnforcedSlotEmitsItsRomSample := by
  intro s
  obtain ⟨t, ht, -, hslot⟩ := exec_tick_slots s
  refine ⟨t, ht, fun i hi => ?_⟩
  obtain ⟨r, hr⟩ := hslot i hi
  rw [hr, State.noDrawAt_iff_not_drawsAt, s.drawsAt_iff_tickSlot i r]
  exact fun hforced hrow => ⟨fun ⟨_, hrandom, _⟩ => hrow hrandom, tickSlot_emits_row hforced hrow⟩

/-- Settles O23: a RANDOM slot that is not forced draws where it wraps, from the source as the slots before it leave
it, and holds where it does not. -/
theorem randomSlotDrawsOnlyAtItsOwnWrap : Obligations.RandomSlotDrawsOnlyAtItsOwnWrap := by
  intro s
  obtain ⟨t, ht, -, -, -, -, hslot⟩ := execTick_spec s
  refine ⟨t, ht, fun i hi => ?_⟩
  rw [hslot i hi, State.noDrawAt_iff_not_drawsAt,
    s.drawsAt_iff_tickSlot i (s.random.afterDraws (s.drawsBefore i))]
  exact ⟨fun hforced hrandom hw => ⟨⟨hforced, hrandom, hw⟩, tickSlot_emits_draw hforced hrandom hw⟩,
    fun hforced hrandom hw => ⟨fun ⟨_, _, hwraps⟩ => hw hwraps, tickSlot_holds hforced hrandom hw⟩,
    Classical.em _, id⟩

/-- Settles O24: a forced slot emits its zero, and any other emits a level or is RANDOM without a wrap and holds. -/
theorem emissionIsMissedOnlyByRandomWithoutWrap : Obligations.EmissionIsMissedOnlyByRandomWithoutWrap := by
  intro s
  obtain ⟨t, ht, -, hslot⟩ := exec_tick_slots s
  refine ⟨t, ht, fun i hi => ?_⟩
  obtain ⟨r, hr⟩ := hslot i hi
  rw [hr]
  exact ⟨⟨fun hmissed => (holds_of_not_upd hmissed).1,
    fun ⟨hforced, hrandom, hw⟩ => (tickSlot_holds hforced hrandom hw).1⟩,
    fun hmissed => (holds_of_not_upd hmissed).2⟩

/-- Settles O25: an emission is a forced zero or a level, and no level is a zero. -/
theorem onlyForcedSlotsGoDark : Obligations.OnlyForcedSlotsGoDark := by
  intro s
  obtain ⟨t, ht, -, hslot⟩ := exec_tick_slots s
  refine ⟨t, ht, fun i hi hemits => ?_⟩
  obtain ⟨r, hr⟩ := hslot i hi
  rw [hr] at hemits ⊢
  by_cases hforced : (tickSlot (s.slot i) r).1.isForced
  · rw [(emitsZero_tickSlot hforced).1]
    exact ⟨iff_of_true rfl hforced, fun _ => Nat.zero_le _⟩
  · obtain ⟨-, base, hout⟩ | ⟨-, -, hupd, -⟩ := tickSlot_emits_or_holds hforced
    · rw [hout]
      have hpos := levelOf_pos (s.slot i).scale base (s.slot i).shape
      refine ⟨iff_of_false (fun h0 => ?_) hforced, levelOf_le_of_clear (s.slot i).scale base⟩
      rw [h0] at hpos
      exact absurd hpos (by decide)
    · exact absurd (hupd.symm.trans hemits) Bool.false_ne_true

/-- Settles O29: the wrap at which a RANDOM slot would draw leaves a one-shot slot forced, and any slot before its last
miss cycle. -/
theorem randomWithOneshotOrMissDraws : Obligations.RandomWithOneshotOrMissDraws := by
  intro s i _ hb
  rw [State.noDrawAt_iff_not_drawsAt, s.drawsAt_iff_tickSlot i s.random]
  refine ⟨fun hmode ⟨hforced, _, hw⟩ => hforced (isForced_of_wraps_of_oneshot hmode hw hb),
    fun hmiss ⟨hforced, _, hw⟩ => ?_⟩
  have he : (s.slot i).endsPattern := by
    by_contra he
    exact hforced (isForced_of_wraps_of_not_endsPattern hw hb he)
  exact he.resolve_left (Nat.pos_iff_ne_zero.mp hmiss)

end Sys2Proof.Machine
end

section
/-! What every step has in common, the source and the sink (spec/60_exceptions.md R200, R214, R215). -/

namespace Sys2Proof.Machine

/-! ## Every step completes -/

theorem exec_completes (c : Instr) (s : State) : ∃ t, exec c s = .next t := by
  obtain ⟨t, ht, -⟩ := exec_slotsAfter c s
  exact ⟨t, ht⟩

theorem step_of_rst {s : State} {rest : List Input} (h : s.inputs = .rst :: rest) :
    step s = .next (s.accept rest).resetRegisters := by
  simp only [step, h]

/-- With nothing offered, with `rst` and with a command word there is a next state. -/
theorem step_completes (s : State) : ∃ t, step s = .next t := by
  cases h : s.inputs with
  | nil => exact ⟨_, step_of_nil h⟩
  | cons input rest =>
    cases input with
    | rst => exact ⟨_, step_of_rst h⟩
    | cmd w => exact step_of_cmd h ▸ exec_completes (decode w) _

/-- Settles O37: every instruction completes, hence every word, and every step is an instruction, `rst` or idle. -/
theorem everyCommandCompletes : Obligations.EveryCommandCompletes :=
  ⟨fun w s => exec_completes (decode w) s, exec_completes, step_completes⟩

/-! ## The source's queue -/

/-- After `k` draws the `k`-th queued answer is the next. -/
theorem RandomPort.afterDraws_draw_queued (r : RandomPort) {k : Nat} {d : Config.Draw}
    (h : r.answers[k]? = some d) : (r.afterDraws k).draw.1 = drawByte d := by
  obtain ⟨hk, hd⟩ := List.getElem?_eq_some_iff.mp h
  refine (r.afterDraws k).draw_queued d (r.answers.drop (k + 1)) ?_
  rw [r.afterDraws_answers, List.drop_eq_getElem_cons hk, hd]

/-- Settles O45: a TICK leaves the source as after the draws that all its slots ask for. -/
theorem queuedAnswersAreTakenInOrder : Obligations.QueuedAnswersAreTakenInOrder := by
  refine ⟨fun r k d h => ?_, fun s => ?_⟩
  · rw [r.afterDraws_draw_queued h, drawByte_toNat]
  · obtain ⟨t, ht, -, -, -, hrandom, -⟩ := execTick_spec s
    refine ⟨t, ht, ?_, ?_⟩
    · rw [hrandom, RandomPort.afterDraws_answers]
    · rw [hrandom, RandomPort.afterDraws_requests]

/-! ## The sink's calls -/

/-- The calls are the slots in ascending index, filtered by `upd`, each with its output. -/
theorem State.emissions_eq_map (s : State) :
    s.emissions
      = ((List.range s.numLeds).filter fun i => (s.slot i).upd).map fun i => (i, (s.slot i).out) := by
  rw [← List.filterMap_eq_map, List.filterMap_filter]
  rfl

theorem State.mem_emissions_iff (s : State) (i : Nat) (v : Byte) :
    (i, v) ∈ s.emissions ↔ i < s.numLeds ∧ (s.slot i).upd = true ∧ (s.slot i).out = v := by
  simp [s.emissions_eq_map, and_assoc]

theorem State.emissions_map_fst (s : State) :
    s.emissions.map Prod.fst = (List.range s.numLeds).filter fun i => (s.slot i).upd := by
  rw [s.emissions_eq_map, List.map_map]
  exact List.map_id _

/-- Settles O46: the indices called are a sublist of the ascending range of slots. -/
theorem emissionsAreTheUpdatedSlotsInOrder : Obligations.EmissionsAreTheUpdatedSlotsInOrder := by
  refine fun s => ⟨s.mem_emissions_iff, ?_⟩
  rw [s.emissions_map_fst]
  exact List.pairwise_lt_range.filter _

end Sys2Proof.Machine
end

section
/-! Reset and the hazards around it (spec/70_reset_and_hazards.md R230 to R244): what `rst` clears, the first TICK
after reset, the stale `prevTrig`, and the contract of the random source. -/

namespace Sys2Proof.Machine

/-! ## `rst` -/

/-- Settles O39: the step is `resetRegisters` once the input is taken. -/
theorem rstClearsEverySlot : Obligations.RstClearsEverySlot := by
  intro s rest h
  exact ⟨_, step_of_rst h, State.numLeds_resetRegisters _, State.resetRegisters_rsp _,
    State.resetRegisters_inputs _, State.resetRegisters_random _, fun _ hi => State.slot_resetRegisters _ hi⟩

/-! ## The first TICK after reset -/

/-- The gate of a slot just reset is closed: `trig` is below the threshold. -/
theorem afterPass2_reset : afterPass2 Slot.reset = { slot := Slot.reset, wrapped := false } :=
  afterPass2_idle Slot.reset rfl

/-- A slot just reset is in GATECHANGE mode, hence not forced: it samples the OFF row, and the floor makes 1 of it
(R182, R232). -/
theorem tickSlot_reset (r : RandomPort) :
    tickSlot Slot.reset r = ({ Slot.reset with out := 1, upd := true }, r) := by
  rw [tickSlot_row Slot.reset r (row := .off) (by rw [afterPass2_reset]; rfl) rfl, afterPass2_reset]
  rfl

theorem asksDraw_reset : asksDraw Slot.reset = false := by
  rw [asksDraw, afterPass2_reset, Bool.and_false]

theorem State.drawsBefore_eq_zero {s : State} {n : Nat} (h : ∀ i, i < n → asksDraw (s.slot i) = false) :
    s.drawsBefore n = 0 := by
  rw [State.drawsBefore, List.length_eq_zero_iff, List.filter_eq_nil_iff]
  intro i hi
  simp [h i (List.mem_range.mp hi)]

/-- Settles O41: every slot is as reset, so none asks for a draw, and each emits the floor. -/
theorem firstTickGlowsAtOne : Obligations.FirstTickGlowsAtOne := by
  intro p s h
  obtain ⟨t, ht, hn, -, -, hrandom, hslot⟩ := execTick_spec s
  have hdraws : s.drawsBefore s.numLeds = 0 :=
    State.drawsBefore_eq_zero fun i hi => by rw [State.slot_of_construct h hi, asksDraw_reset]
  refine ⟨t, ht, hn, ?_, fun i hi => ?_⟩
  · rw [hrandom, hdraws, RandomPort.afterDraws_zero]
  · rw [hslot i hi, State.slot_of_construct h hi, tickSlot_reset]
    rfl

/-! ## The stale `prevTrig` -/

theorem reducedPhase_toNat (ph : BitVec 16) : (reducedPhase ph).toNat = ph.toNat % 2048 := by
  rw [reducedPhase_eq_setWidth, BitVec.toNat_setWidth]

section SetPattern

variable {sh : Byte} {ph : BitVec 16} {sl : Slot}

/-- SETPAT leaves `trig` and `prevTrig`, so a stale `prevTrig` makes an edge of a trigger long high (R238). -/
theorem rising_setPattern : (setPattern sh ph sl).rising ↔ sl.rising := Iff.rfl

theorem sumWraps_setPattern : (setPattern sh ph sl).sumWraps ↔ 2048 ≤ ph.toNat % 2048 + sl.rate.toNat := by
  rw [← reducedPhase_toNat]
  rfl

/-- The first TICK after a one-shot SETPAT fires at the edge. -/
theorem setPattern_fires (hmode : trigMode sh = .oneshot) (hedge : sl.rising)
    (hsum : ph.toNat % 2048 + sl.rate.toNat < 2048) (r : RandomPort) :
    (tickSlot (setPattern sh ph sl) r).1.changeEnabled = true
      ∧ (tickSlot (setPattern sh ph sl) r).1.counter.toNat = ph.toNat % 2048 + sl.rate.toNat := by
  have hen : (setPattern sh ph sl).enabled :=
    (Slot.enabled_iff_of_oneshot (sl := setPattern sh ph sl) hmode).mpr (.inr (rising_setPattern.mpr hedge))
  have hs : ¬(setPattern sh ph sl).sumWraps := by
    rw [sumWraps_setPattern]
    exact Nat.not_le.mpr hsum
  obtain ⟨hlive, -⟩ := advancing_isLive r hen hs
  refine ⟨hlive, ?_⟩
  rw [tickSlot_counter_of_not_sumWraps r hen hs, ← reducedPhase_toNat]
  rfl

/-- Without an edge the slot waits, for SETPAT has cleared `changeEnabled`. -/
theorem waiting_setPattern (hmode : trigMode sh = .oneshot) (hedge : ¬sl.rising) :
    (setPattern sh ph sl).Waiting :=
  ⟨hmode, rfl, mt rising_setPattern.mp hedge⟩

end SetPattern

/-- Settles O34: with `trig` high, whether the first TICK sees an edge is decided by the `prevTrig` that SETPAT
left. -/
theorem stalePrevTrigDecidesTheFirstShot : Obligations.StalePrevTrigDecidesTheFirstShot := by
  intro led sh ph s hone htrig
  have hmode : trigMode sh = .oneshot := (trigMode_oneshot_iff sh).mpr hone
  obtain ⟨t, hset, ⟨hnum, -⟩, hwritten⟩ := (writesSlot_setpat led sh ph).stores s
  obtain ⟨u, htick, -, hslot⟩ := exec_tick_slots t
  obtain ⟨r, hr⟩ := hslot (s.idx led) (hnum ▸ s.idx_lt led)
  refine ⟨t, u, hset, htick, ?_⟩
  rw [hr, hwritten]
  refine ⟨fun hlow hsum => setPattern_fires hmode ⟨htrig, hlow⟩ hsum r, fun hhigh => ?_⟩
  have hedge : ¬(s.addressed led).rising := fun hrise => Nat.not_lt.mpr hhigh hrise.2
  obtain ⟨hwaiting, -, hdark⟩ := (waiting_setPattern hmode hedge).tick r
  exact ⟨hwaiting.idle, hdark⟩

/-! ## The contract of the random source -/

section Contract

variable {shape base : Byte} (scale : Byte)

/-- A base of at most 254 scales to at most 253, since the scale is at most 255. -/
theorem scaled_le_of_base_le (h : base.toNat ≤ 254) : base.toNat * scale.toNat / 256 ≤ 253 := by
  have hprod : base.toNat * scale.toNat ≤ 254 * 255 := Nat.mul_le_mul h (Nat.le_of_lt_succ scale.isLt)
  omega

theorem levelOf_le_of_base_le (h : base.toNat ≤ 254) (hinv : shape.getLsbD 3 = false) :
    (levelOf shape scale base).toNat ≤ 253 := by
  rw [levelOf_toNat_of_clear scale base hinv]
  exact Nat.max_le.mpr ⟨by decide, scaled_le_of_base_le scale h⟩

theorem le_levelOf_of_base_le (h : base.toNat ≤ 254) (hinv : shape.getLsbD 3 = true) :
    2 ≤ (levelOf shape scale base).toNat := by
  have hscaled := scaled_le_of_base_le scale h
  rw [levelOf_toNat_of_set scale base hinv]
  omega

end Contract

/-- Settles O44: a slot that draws emits the level of a byte that is at most 254. -/
theorem drawsKeepTheContract : Obligations.DrawsKeepTheContract := by
  intro s
  obtain ⟨t, ht, -, -, -, -, hslot⟩ := execTick_spec s
  refine ⟨fun i => RandomPort.draw_le _, t, ht, fun i hi hdraws => ?_⟩
  have hout : (t.slot i).out = levelOf (s.slot i).shape (s.slot i).scale (s.drawOf i) := by
    rw [hslot i hi, tickSlot_of_asksDraw _ ((s.drawsAt_iff i).mp hdraws)]
    rfl
  have hbyte : (s.drawOf i).toNat ≤ 254 := RandomPort.draw_le _
  rw [hout]
  exact ⟨fun hinv => ⟨levelOf_pos _ _ _, levelOf_le_of_base_le _ hbyte hinv⟩, le_levelOf_of_base_le _ hbyte⟩

end Sys2Proof.Machine
end
